-- ==== Sys2Proof/Config.lean ====
section
/-! DEFINITION. What is fixed when an instance of the block is built (spec/00_scope.md R6).
The other open parameters of the spec (`MSG_PORT_LAYOUT`, `HOST_BINDING`, `BAUD`) have no place
here: no rule reads them (R6, D17, D26, D27; log entry 9). -/

namespace Sys2Proof

/-- The parameters of one instance. No step changes them (R19). -/
structure Config where
  /-- `ENC_RUNNING_STATUS` (R6): when true, the encoder leaves out a channel-voice status byte that
  equals the standing running status on its output wire (R121). The default is the source's
  behaviour: always send the status (D9). -/
  encRunningStatus : Bool := false
  deriving DecidableEq, Repr

end Sys2Proof
end

