-- ==== Sys2Proof/Word.lean ====
section
/-! DEFINITION. The two word types of the block (spec/00_scope.md R5). -/

namespace Sys2Proof

/-- A byte on a wire or in a register: 8 bits, bit 0 least significant (R5, R7). -/
abbrev Byte := BitVec 8

/-- A data value: the 7 bits `b[6:0]` of a data byte (R5, R52). -/
abbrev Data := BitVec 7

end Sys2Proof
end

