-- ==== Sys2Proof/Message.lean ====
section
/-! DEFINITION. The values that cross the block's ports: Messages (spec/10_state.md R10), and the
host's moves on the input ports `RX`, `TXMSG` and `RESET` (spec/20_memory.md R31, R33, R35). -/

namespace Sys2Proof

/-- A Message (R10): nine variants, their fields in the order of R10's table. Channels and data
fields are unsigned integers of no fixed width (R8), since the layout of `TXMSG` is open
(`MSG_PORT_LAYOUT`, log entry 4); R11 says which values are in range. A code is the status byte that
stands on the wire. -/
inductive Message where
  | noteOff (channel key velocity : Nat)
  | noteOn (channel key velocity : Nat)
  | polyAftertouch (channel key value : Nat)
  | controlChange (channel controller value : Nat)
  | programChange (channel program : Nat)
  | channelAftertouch (channel value : Nat)
  | pitchBend (channel value : Nat)
  | systemRealTime (code : Byte)
  | systemCommon (code : Byte) (data : List Nat)
  deriving DecidableEq, Repr

/-- The kind of a Message: the "message kind" of a handler (R32, D14). -/
inductive MessageKind where
  | noteOff | noteOn | polyAftertouch | controlChange | programChange | channelAftertouch
  | pitchBend | systemRealTime | systemCommon
  deriving DecidableEq, Repr

/-- Which part of the block a `RESET` request is for (R151): the decoder, the encoder, or both. -/
inductive ResetTarget where
  | decoder | encoder | block
  deriving DecidableEq, Repr

/-- One move of the host on an input port (R45): one byte on `RX` (R31), one Message on `TXMSG`
(R33), or a reset request (R35, R151). -/
inductive Transfer where
  | rx (b : Byte)
  | txmsg (m : Message)
  | reset (t : ResetTarget)
  deriving DecidableEq, Repr

/-- The input ports, for a move that is written as bytes. -/
inductive Port where
  | rx | txmsg
  | reset (t : ResetTarget)
  deriving DecidableEq, Repr

/-- A move of the host written as bytes: the byte on `RX`, the full wire form of R59 of the Message
on `TXMSG`, or no byte for a reset request. -/
structure Frame where
  port  : Port
  bytes : List Byte
  deriving DecidableEq, Repr

end Sys2Proof
end

