-- ==== Sys2Proof/Machine/State.lean ====
section
/-! DEFINITION. The state of one block (spec/10_state.md): the decoder's three registers, the encoder's
one, the instance's parameter, and what stands at the ports. The block has no memory, no program
counter, no flags beyond the valid indications and no control registers (R19, R30). -/

namespace Sys2Proof.Machine

/-- One block: a decoder instance and an encoder instance, which share no register (R20). -/
structure State where
  /-- The instance's parameters (R6). Configuration, not state: no step changes it (R19). -/
  cfg : Config
  /-- `RS`, runningStatus (R12): no running status, or one status byte. R15 allows the Option for the
  8-bit register in which 0x00 means none; `State.rsBits` gives those 8 bits. -/
  rs : Option Byte
  /-- `PEND`, pendingFirstDataByte (R13): nothing, or one 7-bit data value. `PEND_V` (R15) is
  `State.pendV`; with `PEND_V = 0` no value is held. -/
  pend : Option Data
  /-- `EXP`, expectedDataBytes (R14), 2 bits. -/
  exp : BitVec 2
  /-- `TXRS`, the transmit running status (R18): none, or the last channel-voice status byte sent.
  Present only when `cfg.encRunningStatus`; when it is absent the field stays `none` and no rule
  reads it. -/
  txrs : Option Byte
  /-- The host's moves on `RX`, `TXMSG` and `RESET` that are still to come, oldest first. The MODEL's
  own field, not the spec's (log entry 1): the block has no input buffer (R31). Its order is the
  order in which the host's requests are serialized (R41). -/
  inbox : List Transfer
  /-- How many bytes `RX` has taken in this run: the index of the last byte, from 1 (R46, D15). The
  MODEL's own field (log entry 2). -/
  rxCount : Nat
  /-- The Messages put on `MSG` in this run, oldest first, each with the index of the byte that
  emitted it (R32, R46). The MODEL's own record (log entry 2): the block holds no Message (R153). -/
  msgOut : List (Nat × Message)
  /-- The bytes put on `TX` in this run, in wire order (R34, R46). The MODEL's own record (log entry
  2). -/
  txOut : List Byte
  deriving DecidableEq, Repr

/-- The block never faults: it raises no exception and has no abort path (R130). No constructor, so
nobody raises one. -/
inductive Fault where
  deriving DecidableEq, Repr

/-- Why a step gives no meaning. -/
inductive Refusal where
  /-- Raised by an arm of `exec` for an instruction that has no meaning in the model. Safe: nothing
  can be proved of it. No arm raises it: every instruction has its meaning. -/
  | notModelled (mnemonic : String)
  /-- Raised by ENC_SYS_COMMON and ENC_RT for a Message that is not constructible (R120, D11): the
  spec gives it no meaning and asks for a refusal. Safe: nothing can be proved of such an input. -/
  | notConstructible (m : Message)
  deriving DecidableEq, Repr

/-- An instance just created with parameters `c` (R21, R152): `RS`, `PEND` and `TXRS` hold none, `EXP`
is 0, and no host move, message or byte has been seen. -/
def State.initial (c : Config) : State where
  cfg := c
  rs := none
  pend := none
  exp := 0#2
  txrs := none
  inbox := []
  rxCount := 0
  msgOut := []
  txOut := []

/-- The block right after reset, with the default parameters (R21; R6: `ENC_RUNNING_STATUS` is false
by default). -/
def State.reset : State := State.initial {}

end Sys2Proof.Machine
end

