-- ==== Sys2Proof/Machine/Operands.lean ====
section
/-! DEFINITION. The functions of operands that the rules share: the class and the arity of a status
(spec/30_encoding.md R56, R57), the decoder's Message builders (spec/41_decoder_data.md R98 to R100), and
the encoder's masks and constructibility (spec/42_encoder.md R120, R122). -/

namespace Sys2Proof.Machine

/-- The classes of R56. -/
inductive StatusClass where
  | none | cv3 | cv2 | sc1 | sc2 | sc0 | uncl | rt
  deriving DecidableEq, Repr

/-- R56 on a byte of a register. A byte with bit 7 clear is no running status (R15), so its class is
NONE; R56 never applies `cls` to one, and no reachable `RS` holds one (log entry 3). -/
def clsByte (s : Byte) : StatusClass :=
  if s < 0x80#8 then .none
  else if s < 0xC0#8 then .cv3
  else if s < 0xE0#8 then .cv2
  else if s < 0xF0#8 then .cv3
  else if 0xF8#8 ≤ s then .rt
  else if s = 0xF2#8 then .sc2
  else if s = 0xF1#8 ∨ s = 0xF3#8 then .sc1
  else if s = 0xF6#8 then .sc0
  else .uncl

/-- R56: the class of an optional status. -/
def cls : Option Byte → StatusClass
  | .none => .none
  | .some s => clsByte s

/-- R57: the number of data bytes of a class. -/
def StatusClass.dataBytes : StatusClass → Nat
  | .cv3 => 2
  | .sc2 => 2
  | .cv2 => 1
  | .sc1 => 1
  | .sc0 => 0
  | .uncl => 0
  | .rt => 0
  | .none => 0

/-- R57: the number of data bytes that complete a message of a status. -/
def arity (s : Option Byte) : Nat := (cls s).dataBytes

/-- The value that `EXP` takes beside a value of `RS` (R14). -/
def expOf (s : Option Byte) : BitVec 2 := BitVec.ofNat 2 (arity s)

/-- The channel of a channel-voice status byte, `s[3:0]`, as a number (R98, R99). -/
def channelOf (s : Byte) : Nat := (s &&& 0x0F#8).toNat

/-- R100: the pitch-bend value, the first data value the low 7 bits. -/
def pitchBendValue (d1 d2 : Data) : Nat := d1.toNat ||| (d2.toNat <<< 7)

/-- R98: the Message of a CV3 status and its two data values; none for any other status, to which
R98 does not apply. -/
def build2 (s : Byte) (d1 d2 : Data) : Option Message :=
  match s &&& 0xF0#8 with
  | 0x80#8 => some (.noteOff (channelOf s) d1.toNat d2.toNat)
  | 0x90#8 => some (.noteOn (channelOf s) d1.toNat d2.toNat)
  | 0xA0#8 => some (.polyAftertouch (channelOf s) d1.toNat d2.toNat)
  | 0xB0#8 => some (.controlChange (channelOf s) d1.toNat d2.toNat)
  | 0xE0#8 => some (.pitchBend (channelOf s) (pitchBendValue d1 d2))
  | _ => none

/-- R99: the Message of a CV2 status and its data value; none for any other status. -/
def build1 (s : Byte) (d : Data) : Option Message :=
  match s &&& 0xF0#8 with
  | 0xC0#8 => some (.programChange (channelOf s) d.toNat)
  | 0xD0#8 => some (.channelAftertouch (channelOf s) d.toNat)
  | _ => none

/-- The status byte of a channel-voice operation: `base | (ch & 0x0F)` (R110, R122). -/
def voiceStatus (base : Byte) (ch : Nat) : Byte := base ||| (BitVec.ofNat 8 ch &&& 0x0F#8)

/-- A data byte on `TX`: `field & 0x7F` (R122). -/
def dataByte (v : Nat) : Byte := BitVec.ofNat 8 v &&& 0x7F#8

/-- The two data bytes of PitchBend: `value & 0x7F`, then `(value >> 7) & 0x7F` (R117). -/
def pitchBendBytes (value : Nat) : List Byte := [dataByte value, dataByte (value >>> 7)]

/-- The codes a SystemCommon Message may carry (R120). -/
def commonCode (code : Byte) : Bool :=
  code == 0xF1#8 || code == 0xF2#8 || code == 0xF3#8 || code == 0xF6#8

/-- R120: the Messages that the encoder gives a meaning. -/
def constructible : Message → Bool
  | .systemRealTime code => decide (0xF8#8 ≤ code)
  | .systemCommon code data => commonCode code && data.length == arity (some code)
  | .noteOff _ _ _ => true
  | .noteOn _ _ _ => true
  | .polyAftertouch _ _ _ => true
  | .controlChange _ _ _ => true
  | .programChange _ _ => true
  | .channelAftertouch _ _ => true
  | .pitchBend _ _ => true

/-- A Message with each field cut to its width (R122, R123): what a decoder makes of the bytes of a
constructible Message. -/
def masked : Message → Message
  | .noteOff ch key velocity => .noteOff (ch % 16) (key % 128) (velocity % 128)
  | .noteOn ch key velocity => .noteOn (ch % 16) (key % 128) (velocity % 128)
  | .polyAftertouch ch key value => .polyAftertouch (ch % 16) (key % 128) (value % 128)
  | .controlChange ch controller value =>
      .controlChange (ch % 16) (controller % 128) (value % 128)
  | .programChange ch program => .programChange (ch % 16) (program % 128)
  | .channelAftertouch ch value => .channelAftertouch (ch % 16) (value % 128)
  | .pitchBend ch value => .pitchBend (ch % 16) (value % 16384)
  | .systemRealTime code => .systemRealTime code
  | .systemCommon code data => .systemCommon code (data.map (· % 128))

/-- The kind of a Message (R32). -/
def kindOf : Message → MessageKind
  | .noteOff _ _ _ => .noteOff
  | .noteOn _ _ _ => .noteOn
  | .polyAftertouch _ _ _ => .polyAftertouch
  | .controlChange _ _ _ => .controlChange
  | .programChange _ _ => .programChange
  | .channelAftertouch _ _ => .channelAftertouch
  | .pitchBend _ _ => .pitchBend
  | .systemRealTime _ => .systemRealTime
  | .systemCommon _ _ => .systemCommon

end Sys2Proof.Machine
end

