-- ==== Sys2Proof/Machine/Flags.lean ====
section
/-! DEFINITION. The valid indications and the hardware bits of the optional registers
(spec/10_state.md R15), and the decoder's phases (R17). The block has no other flag (R19). -/

namespace Sys2Proof.Machine

/-- An optional 8-bit register as R15 encodes it: 0x00 means none. -/
def optionBits : Option Byte → Byte
  | none => 0x00#8
  | some b => b

/-- `RS[7:0]` (R15). -/
def State.rsBits (s : State) : Byte := optionBits s.rs

/-- The validity of `RS`: `RS[7]` (R15). -/
def State.rsValid (s : State) : Bool := s.rsBits.msb

/-- `PEND_V` (R15). `PEND_D` is held only with `PEND_V = 1`. -/
def State.pendV (s : State) : Bool := s.pend.isSome

/-- `TXRS[7:0]`, where `TXRS` is present (R18). -/
def State.txrsBits (s : State) : Byte := optionBits s.txrs

/-- The decoder's observable phases (R17). -/
inductive Phase where
  | idle | drop | wait1 | wait2a | wait2b
  deriving DecidableEq, Repr

/-- R17. Outside the reachable states R17 names no phase: a state whose `RS` is no status of R16
counts as DROP, one of arity 1 with a pending byte as WAIT1 (log entry 3). -/
def State.phase (s : State) : Phase :=
  match s.rs with
  | none => .idle
  | some r =>
    if arity (some r) = 0 then .drop
    else if arity (some r) = 1 then .wait1
    else if s.pendV then .wait2b
    else .wait2a

end Sys2Proof.Machine
end

