-- ==== Sys2Proof/Machine/Ops.lean ====
section
/-! DEFINITION. The named operations on the registers and the output ports, which the meanings share.
The block raises no exception (spec/60_exceptions.md R130), so there is no operation that takes one
and none that returns from one. -/

namespace Sys2Proof.Machine

/-- `emit(m)`: put `m` on `MSG` in the current step (R32). The step's byte is byte `rxCount` of the
run (R46). -/
def State.emit (m : Message) (s : State) : State :=
  { s with msgOut := s.msgOut ++ [(s.rxCount, m)] }

/-- Emit the Message a builder gives; a builder gives none only for a status it does not apply to. -/
def State.emitBuilt : Option Message → State → State
  | none, s => s
  | some m, s => s.emit m

/-- The common action of the status bytes 0x80..0xF5 and 0xF7 (R71, R79):
`RS <- b; PEND <- None; EXP <- arity(b)`. -/
def State.setStatus (b : Byte) (s : State) : State :=
  { s with rs := some b, pend := none, exp := expOf (some b) }

/-- `RS <- None; PEND <- None; EXP <- 0` (R85, R150). -/
def State.clearDecoder (s : State) : State :=
  { s with rs := none, pend := none, exp := 0#2 }

/-- `RS <- None; EXP <- 0`, the end of a System Common message (R94, R97). -/
def State.endCommon (s : State) : State :=
  { s with rs := none, exp := 0#2 }

/-- `PEND <- Some d` (R95). -/
def State.hold (d : Data) (s : State) : State :=
  { s with pend := some d }

/-- `PEND <- None` (R96, R97). -/
def State.release (s : State) : State :=
  { s with pend := none }

/-- `out(b)` for each byte of a list, in order (R34). -/
def State.out (bs : List Byte) (s : State) : State :=
  { s with txOut := s.txOut ++ bs }

/-- `if ENC_RS: TXRS <- v`: `TXRS` exists only with `ENC_RUNNING_STATUS` (R18, R110). -/
def State.setTxrs (v : Option Byte) (s : State) : State :=
  if s.cfg.encRunningStatus then { s with txrs := v } else s

/-- Whether the encoder leaves the status byte `b` out (R121). -/
def State.statusLeftOut (b : Byte) (s : State) : Bool :=
  s.cfg.encRunningStatus && s.txrs == some b

/-- `cv(base, ch, ds)` (R110): a channel-voice operation with status `st` and data bytes `ds`. -/
def State.sendVoice (st : Byte) (ds : List Byte) (s : State) : State :=
  if s.statusLeftOut st then s.out ds else (s.setTxrs (some st)).out (st :: ds)

/-- The encoder's part of a reset: `if ENC_RUNNING_STATUS: TXRS <- None` (R150). -/
def State.clearEncoder (s : State) : State := s.setTxrs none

end Sys2Proof.Machine
end

