-- ==== Sys2Proof/Machine/Encode.lean ====
section
/-! DEFINITION. The encoder's operations (spec/42_encoder.md R110 to R119). -/

namespace Sys2Proof.Machine

/-- ENC_NOTE_OFF (R111). -/
def execEncNoteOff (ch key velocity : Nat) (s : State) : Host.Outcome State Fault Refusal :=
  .next (s.sendVoice (voiceStatus 0x80#8 ch) [dataByte key, dataByte velocity])

/-- ENC_NOTE_ON (R112): velocity 0 is put out as it is. -/
def execEncNoteOn (ch key velocity : Nat) (s : State) : Host.Outcome State Fault Refusal :=
  .next (s.sendVoice (voiceStatus 0x90#8 ch) [dataByte key, dataByte velocity])

/-- ENC_POLY_AT (R113). -/
def execEncPolyAt (ch key value : Nat) (s : State) : Host.Outcome State Fault Refusal :=
  .next (s.sendVoice (voiceStatus 0xA0#8 ch) [dataByte key, dataByte value])

/-- ENC_CC (R114). -/
def execEncCc (ch controller value : Nat) (s : State) : Host.Outcome State Fault Refusal :=
  .next (s.sendVoice (voiceStatus 0xB0#8 ch) [dataByte controller, dataByte value])

/-- ENC_PC (R115). -/
def execEncPc (ch program : Nat) (s : State) : Host.Outcome State Fault Refusal :=
  .next (s.sendVoice (voiceStatus 0xC0#8 ch) [dataByte program])

/-- ENC_CAT (R116). -/
def execEncCat (ch value : Nat) (s : State) : Host.Outcome State Fault Refusal :=
  .next (s.sendVoice (voiceStatus 0xD0#8 ch) [dataByte value])

/-- ENC_PB (R117): the low 7 bits go first. -/
def execEncPb (ch value : Nat) (s : State) : Host.Outcome State Fault Refusal :=
  .next (s.sendVoice (voiceStatus 0xE0#8 ch) (pitchBendBytes value))

/-- ENC_SYS_COMMON (R118): the status byte is always sent and `TXRS` cleared; refused when the
Message is not constructible (R120). -/
def execEncSysCommon (code : Byte) (data : List Nat) (s : State) :
    Host.Outcome State Fault Refusal :=
  if constructible (.systemCommon code data) then
    .next ((s.setTxrs none).out (code :: data.map dataByte))
  else .refused (.notConstructible (.systemCommon code data))

/-- ENC_RT (R119): one byte, `TXRS` unchanged; refused when the Message is not constructible
(R120). -/
def execEncRt (code : Byte) (s : State) : Host.Outcome State Fault Refusal :=
  if constructible (.systemRealTime code) then .next (s.out [code])
  else .refused (.notConstructible (.systemRealTime code))

end Sys2Proof.Machine
end

