-- ==== Sys2Proof/Machine/FeedData.lean ====
section
/-! DEFINITION. The data byte (spec/41_decoder_data.md R90 to R97). -/

namespace Sys2Proof.Machine

/-- `feed_data` with running status `r` (R90). All reads see the registers before the step. -/
def State.feedDataUnder (r : Byte) (d : Data) (s : State) : State :=
  match clsByte r with
  | .none => s
  | .uncl => s
  | .sc0 => s
  | .rt => s
  | .cv2 => s.emitBuilt (build1 r d)
  | .sc1 => (s.emit (.systemCommon r [d.toNat])).endCommon
  | .cv3 =>
    match s.pend with
    | none => s.hold d
    | some p => (s.emitBuilt (build2 r p d)).release
  | .sc2 =>
    match s.pend with
    | none => s.hold d
    | some p => (s.emit (.systemCommon r [p.toNat, d.toNat])).release.endCommon

/-- FEED_DATA (R90): without running status the byte is dropped (R91). -/
def execFeedData (v : Data) (s : State) : Host.Outcome State Fault Refusal :=
  match s.rs with
  | none => .next s
  | some r => .next (s.feedDataUnder r v)

end Sys2Proof.Machine
end

