-- ==== Sys2Proof/Machine/FeedStatus.lean ====
section
/-! DEFINITION. The channel-voice status bytes (spec/40_decoder_status.md R71 to R78). -/

namespace Sys2Proof.Machine

/-- FEED_NOTE_OFF_ST (R72). -/
def execFeedNoteOffSt (n : BitVec 4) (s : State) : Host.Outcome State Fault Refusal :=
  .next (s.setStatus (0x80#8 ||| n.setWidth 8))

/-- FEED_NOTE_ON_ST (R73). -/
def execFeedNoteOnSt (n : BitVec 4) (s : State) : Host.Outcome State Fault Refusal :=
  .next (s.setStatus (0x90#8 ||| n.setWidth 8))

/-- FEED_POLY_AT_ST (R74). -/
def execFeedPolyAtSt (n : BitVec 4) (s : State) : Host.Outcome State Fault Refusal :=
  .next (s.setStatus (0xA0#8 ||| n.setWidth 8))

/-- FEED_CC_ST (R75). -/
def execFeedCcSt (n : BitVec 4) (s : State) : Host.Outcome State Fault Refusal :=
  .next (s.setStatus (0xB0#8 ||| n.setWidth 8))

/-- FEED_PC_ST (R76). -/
def execFeedPcSt (n : BitVec 4) (s : State) : Host.Outcome State Fault Refusal :=
  .next (s.setStatus (0xC0#8 ||| n.setWidth 8))

/-- FEED_CAT_ST (R77). -/
def execFeedCatSt (n : BitVec 4) (s : State) : Host.Outcome State Fault Refusal :=
  .next (s.setStatus (0xD0#8 ||| n.setWidth 8))

/-- FEED_PB_ST (R78). -/
def execFeedPbSt (n : BitVec 4) (s : State) : Host.Outcome State Fault Refusal :=
  .next (s.setStatus (0xE0#8 ||| n.setWidth 8))

end Sys2Proof.Machine
end

