-- ==== Sys2Proof/Machine/FeedSystem.lean ====
section
/-! DEFINITION. The System Common, SysEx and System Real-Time bytes (spec/40_decoder_status.md R79 to
R88). -/

namespace Sys2Proof.Machine

/-- FEED_SYSEX_ST (R80): class UNCL, so the body that follows is dropped (R92). -/
def execFeedSysexSt (s : State) : Host.Outcome State Fault Refusal :=
  .next (s.setStatus 0xF0#8)

/-- FEED_MTC_QF_ST (R81). -/
def execFeedMtcQfSt (s : State) : Host.Outcome State Fault Refusal :=
  .next (s.setStatus 0xF1#8)

/-- FEED_SONG_POS_ST (R82). -/
def execFeedSongPosSt (s : State) : Host.Outcome State Fault Refusal :=
  .next (s.setStatus 0xF2#8)

/-- FEED_SONG_SEL_ST (R83). -/
def execFeedSongSelSt (s : State) : Host.Outcome State Fault Refusal :=
  .next (s.setStatus 0xF3#8)

/-- FEED_SC_UNDEF_ST (R84): 0xF4 or 0xF5 by the operand. -/
def execFeedScUndefSt (u : BitVec 1) (s : State) : Host.Outcome State Fault Refusal :=
  .next (s.setStatus (0xF4#8 ||| u.setWidth 8))

/-- FEED_TUNE_REQ (R85): emitted in its own step; `RS` is left none (spec/90_conflicts.md C7, C12). -/
def execFeedTuneReq (s : State) : Host.Outcome State Fault Refusal :=
  .next (s.clearDecoder.emit (.systemCommon 0xF6#8 []))

/-- FEED_EOX_ST (R86). -/
def execFeedEoxSt (s : State) : Host.Outcome State Fault Refusal :=
  .next (s.setStatus 0xF7#8)

/-- FEED_RT (R87): emitted in its own step, no register read or written; 0xFF is no reset (R88). -/
def execFeedRt (c : BitVec 3) (s : State) : Host.Outcome State Fault Refusal :=
  .next (s.emit (.systemRealTime (0xF8#8 ||| c.setWidth 8)))

end Sys2Proof.Machine
end

