-- ==== Sys2Proof/Machine/Reset.lean ====
section
/-! DEFINITION. The reset request (spec/70_reset_and_hazards.md R150, R151). -/

namespace Sys2Proof.Machine

/-- RESET (R150): the registers of the part it is for take their reset values (R21), nothing is
emitted and no byte is put out. A decoder's reset leaves the encoder, an encoder's the decoder, and
a block reset does both (R151). -/
def execReset (t : ResetTarget) (s : State) : Host.Outcome State Fault Refusal :=
  match t with
  | .decoder => .next s.clearDecoder
  | .encoder => .next s.clearEncoder
  | .block => .next s.clearDecoder.clearEncoder

end Sys2Proof.Machine
end

