-- ==== Sys2Proof/Syntax.lean ====
section
/-! DEFINITION. The instructions: one constructor per row of spec/opcode_table.json. -/

namespace Sys2Proof

/-- The operations of the block. The 16 `feed…` constructors are the decoder's, one per row of
format `rx-byte`; the nine `enc…` constructors are the encoder's, one per Message variant (format
`tx-message`); `reset` is the `RESET` request (format `control`). An operand is the bit field of the
row's encoding, or the Message's field. -/
inductive Instr where
  /-- FEED_DATA `0vvvvvvv` (R90). -/
  | feedData (v : BitVec 7)
  /-- FEED_NOTE_OFF_ST `1000nnnn` (R72). -/
  | feedNoteOffSt (n : BitVec 4)
  /-- FEED_NOTE_ON_ST `1001nnnn` (R73). -/
  | feedNoteOnSt (n : BitVec 4)
  /-- FEED_POLY_AT_ST `1010nnnn` (R74). -/
  | feedPolyAtSt (n : BitVec 4)
  /-- FEED_CC_ST `1011nnnn` (R75). -/
  | feedCcSt (n : BitVec 4)
  /-- FEED_PC_ST `1100nnnn` (R76). -/
  | feedPcSt (n : BitVec 4)
  /-- FEED_CAT_ST `1101nnnn` (R77). -/
  | feedCatSt (n : BitVec 4)
  /-- FEED_PB_ST `1110nnnn` (R78). -/
  | feedPbSt (n : BitVec 4)
  /-- FEED_SYSEX_ST `11110000` (R80). -/
  | feedSysexSt
  /-- FEED_MTC_QF_ST `11110001` (R81). -/
  | feedMtcQfSt
  /-- FEED_SONG_POS_ST `11110010` (R82). -/
  | feedSongPosSt
  /-- FEED_SONG_SEL_ST `11110011` (R83). -/
  | feedSongSelSt
  /-- FEED_SC_UNDEF_ST `1111010u` (R84). -/
  | feedScUndefSt (u : BitVec 1)
  /-- FEED_TUNE_REQ `11110110` (R85). -/
  | feedTuneReq
  /-- FEED_EOX_ST `11110111` (R86). -/
  | feedEoxSt
  /-- FEED_RT `11111ccc` (R87). -/
  | feedRt (c : BitVec 3)
  /-- ENC_NOTE_OFF (R111). -/
  | encNoteOff (channel key velocity : Nat)
  /-- ENC_NOTE_ON (R112). -/
  | encNoteOn (channel key velocity : Nat)
  /-- ENC_POLY_AT (R113). -/
  | encPolyAt (channel key value : Nat)
  /-- ENC_CC (R114). -/
  | encCc (channel controller value : Nat)
  /-- ENC_PC (R115). -/
  | encPc (channel program : Nat)
  /-- ENC_CAT (R116). -/
  | encCat (channel value : Nat)
  /-- ENC_PB (R117). -/
  | encPb (channel value : Nat)
  /-- ENC_SYS_COMMON (R118). -/
  | encSysCommon (code : Byte) (data : List Nat)
  /-- ENC_RT (R119). -/
  | encRt (code : Byte)
  /-- RESET (R150), with the part of the block it is for (R151). -/
  | reset (t : ResetTarget)
  deriving DecidableEq, Repr

end Sys2Proof
end

