-- ==== Sys2Proof/Machine/Dispatch.lean ====
section
/-! DEFINITION. The meaning of every instruction, one arm per constructor of Instr. -/

namespace Sys2Proof.Machine

def exec (i : Instr) (s : State) : Host.Outcome State Fault Refusal :=
  match i with
  | .feedData v => Sys2Proof.Machine.execFeedData v s
  | .feedNoteOffSt n => Sys2Proof.Machine.execFeedNoteOffSt n s
  | .feedNoteOnSt n => Sys2Proof.Machine.execFeedNoteOnSt n s
  | .feedPolyAtSt n => Sys2Proof.Machine.execFeedPolyAtSt n s
  | .feedCcSt n => Sys2Proof.Machine.execFeedCcSt n s
  | .feedPcSt n => Sys2Proof.Machine.execFeedPcSt n s
  | .feedCatSt n => Sys2Proof.Machine.execFeedCatSt n s
  | .feedPbSt n => Sys2Proof.Machine.execFeedPbSt n s
  | .feedSysexSt => Sys2Proof.Machine.execFeedSysexSt s
  | .feedMtcQfSt => Sys2Proof.Machine.execFeedMtcQfSt s
  | .feedSongPosSt => Sys2Proof.Machine.execFeedSongPosSt s
  | .feedSongSelSt => Sys2Proof.Machine.execFeedSongSelSt s
  | .feedScUndefSt u => Sys2Proof.Machine.execFeedScUndefSt u s
  | .feedTuneReq => Sys2Proof.Machine.execFeedTuneReq s
  | .feedEoxSt => Sys2Proof.Machine.execFeedEoxSt s
  | .feedRt c => Sys2Proof.Machine.execFeedRt c s
  | .encNoteOff ch key velocity => Sys2Proof.Machine.execEncNoteOff ch key velocity s
  | .encNoteOn ch key velocity => Sys2Proof.Machine.execEncNoteOn ch key velocity s
  | .encPolyAt ch key value => Sys2Proof.Machine.execEncPolyAt ch key value s
  | .encCc ch controller value => Sys2Proof.Machine.execEncCc ch controller value s
  | .encPc ch program => Sys2Proof.Machine.execEncPc ch program s
  | .encCat ch value => Sys2Proof.Machine.execEncCat ch value s
  | .encPb ch value => Sys2Proof.Machine.execEncPb ch value s
  | .encSysCommon code data => Sys2Proof.Machine.execEncSysCommon code data s
  | .encRt code => Sys2Proof.Machine.execEncRt code s
  | .reset t => Sys2Proof.Machine.execReset t s

end Sys2Proof.Machine
end

