-- ==== Sys2Proof/WellFormed.lean ====
section
/-! DEFINITION. Well-formed Messages (spec/10_state.md R11) and instructions. The encoder takes
Messages that are not well-formed too (spec/42_encoder.md R122 masks them): no meaning asks for
this check. -/

namespace Sys2Proof

/-- A channel is in range: 0..15 (R11). -/
def channelOk (ch : Nat) : Bool := decide (ch ≤ 15)

/-- A data field is in range: 0..127 (R11). -/
def dataOk (v : Nat) : Bool := decide (v ≤ 127)

/-- R11: every field is inside its range. For SystemCommon that is one of (0xF1, [d]),
(0xF2, [d1, d2]), (0xF3, [d]) and (0xF6, []). -/
def Message.wellFormed : Message → Bool
  | .noteOff ch key velocity => channelOk ch && dataOk key && dataOk velocity
  | .noteOn ch key velocity => channelOk ch && dataOk key && dataOk velocity
  | .polyAftertouch ch key value => channelOk ch && dataOk key && dataOk value
  | .controlChange ch controller value => channelOk ch && dataOk controller && dataOk value
  | .programChange ch program => channelOk ch && dataOk program
  | .channelAftertouch ch value => channelOk ch && dataOk value
  | .pitchBend ch value => channelOk ch && decide (value ≤ 16383)
  | .systemRealTime code => decide (0xF8#8 ≤ code)
  | .systemCommon code data =>
      (((code == 0xF1#8 || code == 0xF3#8) && data.length == 1)
        || (code == 0xF2#8 && data.length == 2)
        || (code == 0xF6#8 && data.length == 0))
      && data.all dataOk

/-- A Message in a `TXMSG` operation is held to R11; a byte pattern and a reset request have no
ill-formed value, since every value of their bit fields is an encoding. -/
def Instr.wellFormed : Instr → Bool
  | .feedData _ => true
  | .feedNoteOffSt _ => true
  | .feedNoteOnSt _ => true
  | .feedPolyAtSt _ => true
  | .feedCcSt _ => true
  | .feedPcSt _ => true
  | .feedCatSt _ => true
  | .feedPbSt _ => true
  | .feedSysexSt => true
  | .feedMtcQfSt => true
  | .feedSongPosSt => true
  | .feedSongSelSt => true
  | .feedScUndefSt _ => true
  | .feedTuneReq => true
  | .feedEoxSt => true
  | .feedRt _ => true
  | .encNoteOff ch key velocity => (Message.noteOff ch key velocity).wellFormed
  | .encNoteOn ch key velocity => (Message.noteOn ch key velocity).wellFormed
  | .encPolyAt ch key value => (Message.polyAftertouch ch key value).wellFormed
  | .encCc ch controller value => (Message.controlChange ch controller value).wellFormed
  | .encPc ch program => (Message.programChange ch program).wellFormed
  | .encCat ch value => (Message.channelAftertouch ch value).wellFormed
  | .encPb ch value => (Message.pitchBend ch value).wellFormed
  | .encSysCommon code data => (Message.systemCommon code data).wellFormed
  | .encRt code => (Message.systemRealTime code).wellFormed
  | .reset _ => true

end Sys2Proof
end

