-- ==== Sys2Proof/Decode.lean ====
section
/-! DEFINITION. Decoding: which instruction a host move asks for. `decodeRx` reads a byte of `RX` and is
total (spec/30_encoding.md R63: no byte value is illegal); `decode` reads any host move; `decodeFrame`
reads a host move written as bytes and rejects by name what is no such move. After them stand the
encoders, written from the same tables (R51 to R55, R59). -/

namespace Sys2Proof

/-- R50: a byte is a status byte when bit 7 is set. -/
def isStatus (b : Byte) : Bool := b.msb

/-- `b[7:4]`: the command nibble of a status byte (R51, R53). -/
def command (b : Byte) : BitVec 4 := b.extractLsb' 4 4

/-- `b[3:0]`: the channel of a channel-voice status byte (R51; spec/90_conflicts.md C1). -/
def channelBits (b : Byte) : BitVec 4 := b.extractLsb' 0 4

/-- `b[6:0]`: the value of a data byte (R52). -/
def dataBits (b : Byte) : Data := b.extractLsb' 0 7

/-- The system bytes 0xF0..0xFF (R54, R55): bit 3 selects Real-Time, else the low nibble is the
code. -/
def decodeSystem (b : Byte) : Instr :=
  match channelBits b with
  | 0x0#4 => .feedSysexSt
  | 0x1#4 => .feedMtcQfSt
  | 0x2#4 => .feedSongPosSt
  | 0x3#4 => .feedSongSelSt
  | 0x4#4 => .feedScUndefSt 0#1
  | 0x5#4 => .feedScUndefSt 1#1
  | 0x6#4 => .feedTuneReq
  | 0x7#4 => .feedEoxSt
  | _ => .feedRt (b.extractLsb' 0 3)

/-- The decoder's instruction for a byte on `RX` (R50, R53, R54; the 16 `rx-byte` rows of the opcode
table). The last arm is the nibble 0xF, the only one left for a status byte. -/
def decodeRx (b : Byte) : Instr :=
  if isStatus b then
    match command b with
    | 0x8#4 => .feedNoteOffSt (channelBits b)
    | 0x9#4 => .feedNoteOnSt (channelBits b)
    | 0xA#4 => .feedPolyAtSt (channelBits b)
    | 0xB#4 => .feedCcSt (channelBits b)
    | 0xC#4 => .feedPcSt (channelBits b)
    | 0xD#4 => .feedCatSt (channelBits b)
    | 0xE#4 => .feedPbSt (channelBits b)
    | _ => decodeSystem b
  else .feedData (dataBits b)

/-- The encoder's operation for a Message on `TXMSG`: the variant selects it (R110). -/
def decodeMessage : Message → Instr
  | .noteOff ch key velocity => .encNoteOff ch key velocity
  | .noteOn ch key velocity => .encNoteOn ch key velocity
  | .polyAftertouch ch key value => .encPolyAt ch key value
  | .controlChange ch controller value => .encCc ch controller value
  | .programChange ch program => .encPc ch program
  | .channelAftertouch ch value => .encCat ch value
  | .pitchBend ch value => .encPb ch value
  | .systemRealTime code => .encRt code
  | .systemCommon code data => .encSysCommon code data

/-- The instruction a host move asks for (R31, R33, R35): total on every move. -/
def decode : Transfer → Instr
  | .rx b => decodeRx b
  | .txmsg m => decodeMessage m
  | .reset t => .reset t

/-- Why bytes are no host move. -/
inductive DecodeError where
  /-- `RX` takes exactly one byte per transfer (R31). -/
  | rxNotOneByte
  /-- A wire form has a status byte (R36, R59). -/
  | txEmpty
  /-- A full wire form begins with a status byte (R36, R59). -/
  | txNoStatusByte
  /-- A byte after the status byte has bit 7 set (R52, R59). -/
  | txDataBitSeven
  /-- The number of data bytes is not the status byte's (R57, R59). -/
  | txDataCount
  /-- No Message has this status byte: 0xF0, 0xF4, 0xF5 or 0xF7 (R58, R59). -/
  | txNoSuchMessage
  /-- A reset request carries no byte (R35). -/
  | resetCarriesBytes
  deriving DecidableEq, Repr

/-- A 14-bit value from its two data values, the low 7 bits first (R37, R100). -/
def joinFourteen (d1 d2 : Data) : Nat := d1.toNat ||| (d2.toNat <<< 7)

/-- The wire forms with a status byte 0xF0..0xFF (R59). -/
def decodeWireSystem (s : Byte) (ds : List Data) : Except DecodeError Instr :=
  match channelBits s with
  | 0x0#4 => .error .txNoSuchMessage
  | 0x1#4 => match ds with
    | [d] => .ok (.encSysCommon s [d.toNat])
    | _ => .error .txDataCount
  | 0x2#4 => match ds with
    | [d1, d2] => .ok (.encSysCommon s [d1.toNat, d2.toNat])
    | _ => .error .txDataCount
  | 0x3#4 => match ds with
    | [d] => .ok (.encSysCommon s [d.toNat])
    | _ => .error .txDataCount
  | 0x4#4 => .error .txNoSuchMessage
  | 0x5#4 => .error .txNoSuchMessage
  | 0x6#4 => match ds with
    | [] => .ok (.encSysCommon s [])
    | _ => .error .txDataCount
  | 0x7#4 => .error .txNoSuchMessage
  | _ => match ds with
    | [] => .ok (.encRt s)
    | _ => .error .txDataCount

/-- The wire form of a Message with status byte `s` and data values `ds`, read back (R59). -/
def decodeWire (s : Byte) (ds : List Data) : Except DecodeError Instr :=
  match command s, ds with
  | 0x8#4, [k, v] => .ok (.encNoteOff (channelBits s).toNat k.toNat v.toNat)
  | 0x9#4, [k, v] => .ok (.encNoteOn (channelBits s).toNat k.toNat v.toNat)
  | 0xA#4, [k, v] => .ok (.encPolyAt (channelBits s).toNat k.toNat v.toNat)
  | 0xB#4, [c, v] => .ok (.encCc (channelBits s).toNat c.toNat v.toNat)
  | 0xC#4, [p] => .ok (.encPc (channelBits s).toNat p.toNat)
  | 0xD#4, [v] => .ok (.encCat (channelBits s).toNat v.toNat)
  | 0xE#4, [d1, d2] => .ok (.encPb (channelBits s).toNat (joinFourteen d1 d2))
  | 0xF#4, ds => decodeWireSystem s ds
  | _, _ => .error .txDataCount

/-- A host move written as bytes, read back: total on every port and every list of bytes. -/
def decodeFrame (f : Frame) : Except DecodeError Instr :=
  match f.port, f.bytes with
  | .rx, [b] => .ok (decodeRx b)
  | .rx, _ => .error .rxNotOneByte
  | .txmsg, [] => .error .txEmpty
  | .txmsg, s :: ds =>
    if isStatus s then
      if ds.any isStatus then .error .txDataBitSeven else decodeWire s (ds.map dataBits)
    else .error .txNoStatusByte
  | .reset t, [] => .ok (.reset t)
  | .reset _, _ :: _ => .error .resetCarriesBytes

/-- The host move an instruction stands for: the byte of the row's encoding (R51 to R55), the Message
of the operation (R110), or the reset request. -/
def encode : Instr → Transfer
  | .feedData v => .rx (v.setWidth 8)
  | .feedNoteOffSt n => .rx (0x80#8 ||| n.setWidth 8)
  | .feedNoteOnSt n => .rx (0x90#8 ||| n.setWidth 8)
  | .feedPolyAtSt n => .rx (0xA0#8 ||| n.setWidth 8)
  | .feedCcSt n => .rx (0xB0#8 ||| n.setWidth 8)
  | .feedPcSt n => .rx (0xC0#8 ||| n.setWidth 8)
  | .feedCatSt n => .rx (0xD0#8 ||| n.setWidth 8)
  | .feedPbSt n => .rx (0xE0#8 ||| n.setWidth 8)
  | .feedSysexSt => .rx 0xF0#8
  | .feedMtcQfSt => .rx 0xF1#8
  | .feedSongPosSt => .rx 0xF2#8
  | .feedSongSelSt => .rx 0xF3#8
  | .feedScUndefSt u => .rx (0xF4#8 ||| u.setWidth 8)
  | .feedTuneReq => .rx 0xF6#8
  | .feedEoxSt => .rx 0xF7#8
  | .feedRt c => .rx (0xF8#8 ||| c.setWidth 8)
  | .encNoteOff ch key velocity => .txmsg (.noteOff ch key velocity)
  | .encNoteOn ch key velocity => .txmsg (.noteOn ch key velocity)
  | .encPolyAt ch key value => .txmsg (.polyAftertouch ch key value)
  | .encCc ch controller value => .txmsg (.controlChange ch controller value)
  | .encPc ch program => .txmsg (.programChange ch program)
  | .encCat ch value => .txmsg (.channelAftertouch ch value)
  | .encPb ch value => .txmsg (.pitchBend ch value)
  | .encSysCommon code data => .txmsg (.systemCommon code data)
  | .encRt code => .txmsg (.systemRealTime code)
  | .reset t => .reset t

/-- A byte of a wire form from an in-range number. -/
def wireByte (v : Nat) : Byte := BitVec.ofNat 8 v

/-- R59: the full wire form of a well-formed Message, the status byte first (R36). A Message that is
not well-formed has none; `wireForm` gives it bytes that `decodeFrame` need not read back. -/
def wireForm : Message → List Byte
  | .noteOff ch key velocity => [0x80#8 ||| wireByte ch, wireByte key, wireByte velocity]
  | .noteOn ch key velocity => [0x90#8 ||| wireByte ch, wireByte key, wireByte velocity]
  | .polyAftertouch ch key value => [0xA0#8 ||| wireByte ch, wireByte key, wireByte value]
  | .controlChange ch controller value =>
      [0xB0#8 ||| wireByte ch, wireByte controller, wireByte value]
  | .programChange ch program => [0xC0#8 ||| wireByte ch, wireByte program]
  | .channelAftertouch ch value => [0xD0#8 ||| wireByte ch, wireByte value]
  | .pitchBend ch value =>
      [0xE0#8 ||| wireByte ch, wireByte (value &&& 0x7F), wireByte ((value >>> 7) &&& 0x7F)]
  | .systemRealTime code => [code]
  | .systemCommon code data => code :: data.map wireByte

/-- A host move as bytes. -/
def frameOf : Transfer → Frame
  | .rx b => ⟨.rx, [b]⟩
  | .txmsg m => ⟨.txmsg, wireForm m⟩
  | .reset t => ⟨.reset t, []⟩

/-- The bytes of an instruction. -/
def encodeFrame (i : Instr) : Frame := frameOf (encode i)

/-- The number of data bytes of a full wire form by its status byte, for a word that holds more bytes
than the form has (R57; any count does for a status byte that no Message has). -/
def wireDataCount (s : Byte) : Nat :=
  match command s with
  | 0xC#4 => 1
  | 0xD#4 => 1
  | 0xF#4 =>
    match channelBits s with
    | 0x1#4 => 1
    | 0x2#4 => 2
    | 0x3#4 => 1
    | _ => 0
  | _ => 2

/-- Byte `k` of a number, byte 0 the lowest. -/
def byteOf (w k : Nat) : Byte := BitVec.ofNat 8 (w >>> (8 * k))

/-- The bytes of a table word (log entry 6): no bits are a reset request for the block, up to one byte
is a byte on `RX`, and more are a wire form on `TXMSG`, the first byte lowest, with no bit set
behind the form's last byte. -/
def tableFrame (nbits w : Nat) : Option Frame :=
  if nbits = 0 then (if w = 0 then some ⟨.reset .block, []⟩ else none)
  else if nbits ≤ 8 then (if w < 256 then some ⟨.rx, [byteOf w 0]⟩ else none)
  else
    let n := wireDataCount (byteOf w 0)
    if w < 2 ^ (8 * (n + 1)) then
      some ⟨.txmsg, byteOf w 0 :: (List.range n).map fun k => byteOf w (k + 1)⟩
    else none

/-- The instruction the decoder reads from a word numbered as spec/opcode_table.json numbers it. -/
def decodeTableWord (nbits w : Nat) : Option Instr :=
  match tableFrame nbits w with
  | none => none
  | some f =>
    match decodeFrame f with
    | .ok i => some i
    | .error _ => none

end Sys2Proof
end

