-- ==== Sys2Proof/Machine/Fetch.lean ====
section
/-! DEFINITION. Taking the host's next move from a port (spec/20_memory.md R31, R33, R35, R41). The
block fetches no instruction (R42): a host move is what it steps on. -/

namespace Sys2Proof.Machine

/-- How many bytes of `RX` a host move is. -/
def rxBytes : Transfer → Nat
  | .rx _ => 1
  | .txmsg _ => 0
  | .reset _ => 0

/-- The host's next move, decoded, and the state in which its step begins; none when the host makes
no move. -/
def State.take (s : State) : Option (Instr × State) :=
  match s.inbox with
  | [] => none
  | t :: rest => some (decode t, { s with inbox := rest, rxCount := s.rxCount + rxBytes t })

/-- The state with the host about to make the move that instruction `i` stands for. -/
def State.offer (i : Instr) (s : State) : State :=
  { s with inbox := encode i :: s.inbox }

end Sys2Proof.Machine
end

