-- ==== Sys2Proof/Machine/Step.lean ====
section
/-! DEFINITION. One step of the block: the host's next move is taken and runs to completion
(spec/20_memory.md R38, R41). -/

namespace Sys2Proof.Machine

/-- One step. With no move from the host the block does nothing and holds its state (R31, R142). -/
def step (s : State) : Host.Outcome State Fault Refusal :=
  match s.take with
  | none => .next s
  | some (i, s') => exec i s'

/-- The state with the instruction of a table word as the host's next move (log entry 6). A word that
decodes to no instruction is no host move, and changes nothing. -/
def State.withFetchWord (s : State) (nbits w : Nat) : State :=
  match decodeTableWord nbits w with
  | none => s
  | some i => s.offer i

end Sys2Proof.Machine
end

