-- ==== Sys2Proof/Machine/Instances.lean ====
section
/-! DEFINITION. Several instances side by side (spec/10_state.md R20, spec/60_exceptions.md R140). A
decoder-only or encoder-only instance is a block whose other part gets no move from the host. -/

namespace Sys2Proof.Machine

/-- Any number of instances, each with its own registers and ports. The position in the list is the
host's name for an instance; no instance can see it (R140). -/
abbrev Instances := List State

/-- Creating an instance with parameters `c` puts it in the reset state (R152). -/
def Instances.create (c : Config) (xs : Instances) : Instances := xs ++ [State.initial c]

/-- A step of instance `k`. Where there is no instance `k` there is no port, so no move is made. -/
def Instances.stepAt (k : Nat) (xs : Instances) : Host.Outcome Instances Fault Refusal :=
  match xs[k]? with
  | none => .next xs
  | some s =>
    match step s with
    | .next s' => .next (xs.set k s')
    | .fault f => .fault f
    | .refused r => .refused r

end Sys2Proof.Machine
end

