-- ==== Sys2Proof/Machine/Reference.lean ====
section
/-! DEFINITION. The spec's own pseudocode and transition table, written as it writes them, one function
for the whole decoder (spec/40_decoder_status.md R70, spec/41_decoder_data.md R90) and one for the whole
encoder (spec/42_encoder.md R110). `exec` does not call them: they are what statements compare the
instruction meanings with, so the register writes are spelled out here and not taken from Ops. -/

namespace Sys2Proof.Machine.Reference

/-- `emit(m)` (R32). -/
def emit (m : Message) (s : State) : State :=
  { s with msgOut := s.msgOut ++ [(s.rxCount, m)] }

/-- `emit` of a builder's result (R98, R99), which every status the pseudocode gives it has. -/
def emitSome : Option Message → State → State
  | none, s => s
  | some m, s => emit m s

/-- `feed_data(b)` (R90). -/
def feedData (b : Byte) (s : State) : State :=
  let d : Data := b.setWidth 7
  match s.rs with
  | none => s
  | some r =>
    match cls (some r) with
    | .none => s
    | .uncl => s
    | .sc0 => s
    | .rt => s
    | .cv2 => emitSome (build1 r d) s
    | .sc1 => { emit (.systemCommon r [d.toNat]) s with rs := none, exp := 0#2 }
    | .cv3 =>
      match s.pend with
      | none => { s with pend := some d }
      | some p => { emitSome (build2 r p d) s with pend := none }
    | .sc2 =>
      match s.pend with
      | none => { s with pend := some d }
      | some p =>
        { emit (.systemCommon 0xF2#8 [p.toNat, d.toNat]) s with
          pend := none, rs := none, exp := 0#2 }

/-- `feed(b)` (R70), the tests in R137's order. -/
def feed (b : Byte) (s : State) : State :=
  if b < 0x80#8 then feedData b s
  else if 0xF8#8 ≤ b then emit (.systemRealTime b) s
  else if b = 0xF6#8 then
    emit (.systemCommon 0xF6#8 []) { s with rs := none, pend := none, exp := 0#2 }
  else if 0xF0#8 ≤ b then
    { s with rs := some b, pend := none, exp := BitVec.ofNat 2 (arity (some b)) }
  else
    { s with rs := some b, pend := none, exp := BitVec.ofNat 2 (arity (some b)) }

/-- R70's table: the phase after byte `b`, from phase `p` with `RS` of class `c`. -/
def phaseAfter (b : Byte) (p : Phase) (c : StatusClass) : Phase :=
  if 0xF8#8 ≤ b then p
  else if b = 0xF6#8 then .idle
  else if 0x80#8 ≤ b then
    if arity (some b) = 2 then .wait2a
    else if arity (some b) = 1 then .wait1
    else .drop
  else
    match p with
    | .idle => .idle
    | .drop => .drop
    | .wait1 => if c = .cv2 then .wait1 else .idle
    | .wait2a => .wait2b
    | .wait2b => if c = .cv3 then .wait2a else .idle

/-- R70's table: what byte `b` emits, from phase `p` with `RS` and `PEND` as given. -/
def emitted (b : Byte) (p : Phase) (rs : Option Byte) (pend : Option Data) : Option Message :=
  if 0xF8#8 ≤ b then some (.systemRealTime b)
  else if b = 0xF6#8 then some (.systemCommon 0xF6#8 [])
  else if 0x80#8 ≤ b then none
  else
    match p, rs, pend with
    | .wait1, some r, _ =>
      if clsByte r = .cv2 then build1 r (b.setWidth 7)
      else some (.systemCommon r [b.toNat])
    | .wait2b, some r, some q =>
      if clsByte r = .cv3 then build2 r q (b.setWidth 7)
      else some (.systemCommon 0xF2#8 [q.toNat, b.toNat])
    | _, _, _ => none

/-- `out(b)` for each byte of a list (R34). -/
def out (bs : List Byte) (s : State) : State := { s with txOut := s.txOut ++ bs }

/-- `d & 0x7F` as a byte (R110). -/
def low7 (d : Nat) : Byte := BitVec.ofNat 8 (d % 128)

/-- `cv(base, ch, ds)` (R110). -/
def cv (base : Byte) (ch : Nat) (ds : List Nat) (s : State) : State :=
  let st : Byte := base ||| BitVec.ofNat 8 (ch % 16)
  let s1 :=
    if s.cfg.encRunningStatus = true ∧ s.txrs = some st then s
    else if s.cfg.encRunningStatus then { out [st] s with txrs := some st }
    else out [st] s
  out (ds.map low7) s1

/-- `encode(m)` (R110). -/
def encode (m : Message) (s : State) : Host.Outcome State Fault Refusal :=
  if constructible m then
    match m with
    | .noteOff ch k v => .next (cv 0x80#8 ch [k, v] s)
    | .noteOn ch k v => .next (cv 0x90#8 ch [k, v] s)
    | .polyAftertouch ch k v => .next (cv 0xA0#8 ch [k, v] s)
    | .controlChange ch c v => .next (cv 0xB0#8 ch [c, v] s)
    | .programChange ch p => .next (cv 0xC0#8 ch [p] s)
    | .channelAftertouch ch v => .next (cv 0xD0#8 ch [v] s)
    | .pitchBend ch v => .next (cv 0xE0#8 ch [v % 128, v / 128 % 128] s)
    | .systemCommon c ds =>
      let s1 := out (ds.map low7) (out [c] s)
      .next (if s.cfg.encRunningStatus then { s1 with txrs := none } else s1)
    | .systemRealTime c => .next (out [c] s)
  else .refused (.notConstructible m)

end Sys2Proof.Machine.Reference
end

