-- ==== Sys2Proof/Machine/Run.lean ====
section
/-! DEFINITION. Runs of the block and what is observed of one (spec/20_memory.md R46), and which Messages
a host acts on (R32). -/

namespace Sys2Proof.Machine

/-- The state with the host's moves to come set to `ts`. -/
def State.load (ts : List Transfer) (s : State) : State := { s with inbox := ts }

/-- `k` steps, ending at the first fault or refusal; `Host.Core.run` of the block, with its types
written out. -/
def runSteps : Nat → State → Host.Outcome State Fault Refusal
  | 0, s => .next s
  | k + 1, s =>
    match step s with
    | .next t => runSteps k t
    | .fault f => .fault f
    | .refused r => .refused r

/-- The host makes the moves `ts`, one step each (R46). -/
def run (ts : List Transfer) (s : State) : Host.Outcome State Fault Refusal :=
  runSteps ts.length (s.load ts)

/-- A run of the decoder on bytes alone. -/
def feedAll (bs : List Byte) (s : State) : Host.Outcome State Fault Refusal :=
  run (bs.map Transfer.rx) s

/-- A run of the encoder on Messages alone. -/
def encodeAll (ms : List Message) (s : State) : Host.Outcome State Fault Refusal :=
  run (ms.map Transfer.txmsg) s

/-- What is observed of a run (R46): the emitted Messages, each with the index of its byte, the
concatenated bytes of `TX`, and the final registers. -/
structure Observation where
  messages : List (Nat × Message)
  bytes    : List Byte
  rs       : Option Byte
  pend     : Option Data
  exp      : BitVec 2
  txrs     : Option Byte
  deriving DecidableEq, Repr

/-- The observation of a run that ended in `s`. -/
def State.observation (s : State) : Observation :=
  ⟨s.msgOut, s.txOut, s.rs, s.pend, s.exp, s.txrs⟩

/-- The Messages a run from `s` to `t` put on `MSG`, without their indices. -/
def newMessages (s t : State) : List Message := (t.msgOut.drop s.msgOut.length).map Prod.snd

/-- The bytes a run from `s` to `t` put on `TX`. -/
def newBytes (s t : State) : List Byte := t.txOut.drop s.txOut.length

/-- The Messages that reach a host with handlers for the kinds `ks`: kinds without a handler are
dropped by the host, not by the block (R32, D14). -/
def delivered (ks : List MessageKind) (s : State) : List (Nat × Message) :=
  s.msgOut.filter fun e => ks.contains (kindOf e.2)

end Sys2Proof.Machine
end

