-- ==== Sys2Proof/Safety.lean ====
section
/-! DEFINITION. The terms that claims are stated in: the invariants of the registers (spec/10_state.md
R14, R16, R18) and of the run's record (R11, R40), the agreement of an encoder and a decoder
(spec/42_encoder.md R123), and the host's duties (spec/20_memory.md R45). -/

namespace Sys2Proof.Machine

/-- The values R16 clause 2 lets `RS` hold: 0x80..0xF5 and 0xF7. -/
abbrev legalRs (b : Byte) : Prop := 0x80#8 ≤ b ∧ b ≤ 0xF7#8 ∧ b ≠ 0xF6#8

/-- R16, clauses 1 to 3. Clause 4 (`PEND < 0x80`) is the type of `pend`. -/
abbrev DecoderInv (s : State) : Prop :=
  s.exp = expOf s.rs ∧ (∀ b ∈ s.rs, legalRs b) ∧ (s.pend ≠ none → arity s.rs = 2)

/-- A channel-voice status byte: 0x80..0xEF. -/
abbrev voiceByte (b : Byte) : Prop := 0x80#8 ≤ b ∧ b ≤ 0xEF#8

/-- The last status byte on a wire that is no real-time byte: the standing running status if it is a
channel-voice one (R6, R121). -/
def standingStatus (bs : List Byte) : Option Byte :=
  (bs.filter fun b => decide (0x80#8 ≤ b) && decide (b < 0xF8#8)).getLast?

/-- R18: `TXRS` is absent (none) without `ENC_RUNNING_STATUS`; where it holds a byte, that is a
channel-voice status, and it is the one standing on the output wire. -/
abbrev EncoderInv (s : State) : Prop :=
  (s.cfg.encRunningStatus = false → s.txrs = none) ∧
  (∀ b ∈ s.txrs, voiceByte b ∧ standingStatus s.txOut = some b)

/-- R11, R40: the Messages of a run are well-formed, and stand in the order of the bytes that emitted
them, at most one for each byte `RX` has taken. -/
abbrev RecordInv (s : State) : Prop :=
  (s.msgOut.map Prod.fst).Pairwise (· < ·) ∧
  (∀ e ∈ s.msgOut, 1 ≤ e.1 ∧ e.1 ≤ s.rxCount ∧ e.2.wellFormed = true)

/-- The invariant of the block. -/
abbrev Inv (s : State) : Prop := DecoderInv s ∧ EncoderInv s ∧ RecordInv s

/-- R123: decoder `d` agrees with encoder `e`. Without `ENC_RUNNING_STATUS` nothing is asked. -/
abbrev Agree (e d : State) : Prop :=
  e.cfg.encRunningStatus = true → e.txrs = none ∨ (d.rs = e.txrs ∧ d.pend = none)

/-- A move the host may make under its duty of R45 and R135: a Message sent is constructible. -/
def dutiful : Transfer → Bool
  | .rx _ => true
  | .txmsg m => constructible m
  | .reset _ => true

/-- The host keeps its duty in every move of a list (R45, R135). -/
abbrev HostDuty (ts : List Transfer) : Prop := ∀ t ∈ ts, dutiful t = true

/-- A System Real-Time byte: 0xF8..0xFF (R54). -/
def isRealTime (b : Byte) : Bool := decide (0xF8#8 ≤ b)

/-- A System Real-Time Message. -/
def isRealTimeMessage : Message → Bool
  | .systemRealTime _ => true
  | .noteOff _ _ _ => false
  | .noteOn _ _ _ => false
  | .polyAftertouch _ _ _ => false
  | .controlChange _ _ _ => false
  | .programChange _ _ => false
  | .channelAftertouch _ _ => false
  | .pitchBend _ _ => false
  | .systemCommon _ _ => false

/-- A channel-voice Message: a message scoped to a channel (spec/00_scope.md, glossary). -/
def isVoiceMessage : Message → Bool
  | .noteOff _ _ _ => true
  | .noteOn _ _ _ => true
  | .polyAftertouch _ _ _ => true
  | .controlChange _ _ _ => true
  | .programChange _ _ => true
  | .channelAftertouch _ _ => true
  | .pitchBend _ _ => true
  | .systemRealTime _ => false
  | .systemCommon _ _ => false

/-- Two states hold the same decoder registers. -/
abbrev SameDecoder (s t : State) : Prop := s.rs = t.rs ∧ s.pend = t.pend ∧ s.exp = t.exp

/-- The decoder's frame: what a decoder step leaves alone whatever it does (R19, R20, R43). -/
abbrev EncoderUntouched (s t : State) : Prop :=
  t.cfg = s.cfg ∧ t.txrs = s.txrs ∧ t.txOut = s.txOut ∧ t.inbox = s.inbox ∧ t.rxCount = s.rxCount

/-- The encoder's frame: what an encode leaves alone whatever it does (R19, R20, R43). -/
abbrev DecoderUntouched (s t : State) : Prop :=
  t.cfg = s.cfg ∧ SameDecoder t s ∧ t.msgOut = s.msgOut ∧ t.inbox = s.inbox ∧
    t.rxCount = s.rxCount

end Sys2Proof.Machine
end

