-- ==== Sys2Proof/Certificates/Slice0/Obligations.lean ====
section
/-! DEFINITION. The statements for the provers. Each docstring names the rule it formalises. -/

open Sys2Proof Sys2Proof.Machine

/-! ## Encoding -/

/-- Every well-formed instruction is read back from its bytes (R51 to R55, R59, R63). That a host move
is a port and bytes, and a reset request a frame of no bytes, is the model's choice (log entry 6). -/
def Obligations.FrameRoundTrip : Prop :=
  ∀ i : Instr, i.wellFormed = true → decodeFrame (encodeFrame i) = .ok i

/-- The other direction: bytes that decode are the bytes of the instruction they decode to, and that
instruction is well-formed, so each instruction has one form in bytes (R50 to R55 for a byte on `RX`,
R59 for a Message). That a host move is a port and bytes, and a reset request a frame of no bytes,
is the model's choice (log entry 6). -/
def Obligations.DecodedFrameIsTheEncoding : Prop :=
  ∀ (f : Frame) (i : Instr), decodeFrame f = .ok i → i.wellFormed = true ∧ encodeFrame i = f

/-- A host move and the instruction it asks for determine each other (R31, R33, R35, R110). -/
def Obligations.MovesAndInstructionsAgree : Prop :=
  (∀ i : Instr, decode (encode i) = i) ∧ (∀ t : Transfer, encode (decode t) = t)

/-- The 16 `rx-byte` rows of the opcode table: a byte that matches a row's mask decodes to that row's
instruction, with the row's bit field as operand (R50 to R55). -/
def Obligations.RxRowsDecode : Prop :=
  ∀ b : Byte,
    (b &&& 0x80#8 = 0x00#8 → decodeRx b = .feedData (b.setWidth 7)) ∧
    (b &&& 0xF0#8 = 0x80#8 → decodeRx b = .feedNoteOffSt (b.setWidth 4)) ∧
    (b &&& 0xF0#8 = 0x90#8 → decodeRx b = .feedNoteOnSt (b.setWidth 4)) ∧
    (b &&& 0xF0#8 = 0xA0#8 → decodeRx b = .feedPolyAtSt (b.setWidth 4)) ∧
    (b &&& 0xF0#8 = 0xB0#8 → decodeRx b = .feedCcSt (b.setWidth 4)) ∧
    (b &&& 0xF0#8 = 0xC0#8 → decodeRx b = .feedPcSt (b.setWidth 4)) ∧
    (b &&& 0xF0#8 = 0xD0#8 → decodeRx b = .feedCatSt (b.setWidth 4)) ∧
    (b &&& 0xF0#8 = 0xE0#8 → decodeRx b = .feedPbSt (b.setWidth 4)) ∧
    (b = 0xF0#8 → decodeRx b = .feedSysexSt) ∧
    (b = 0xF1#8 → decodeRx b = .feedMtcQfSt) ∧
    (b = 0xF2#8 → decodeRx b = .feedSongPosSt) ∧
    (b = 0xF3#8 → decodeRx b = .feedSongSelSt) ∧
    (b &&& 0xFE#8 = 0xF4#8 → decodeRx b = .feedScUndefSt (b.setWidth 1)) ∧
    (b = 0xF6#8 → decodeRx b = .feedTuneReq) ∧
    (b = 0xF7#8 → decodeRx b = .feedEoxSt) ∧
    (b &&& 0xF8#8 = 0xF8#8 → decodeRx b = .feedRt (b.setWidth 3))

/-- Words written out from the encodings of R52, R53, R55, R87 and R59, one for each family. The last
clause, a frame of no bytes as the reset request, and the port of a frame are the model's choice
(log entry 6): the spec gives RESET no byte (R35). -/
def Obligations.WrittenOutWordsDecode : Prop :=
  decodeFrame ⟨.rx, [0b01000000#8]⟩ = .ok (.feedData 0x40#7) ∧
  decodeFrame ⟨.rx, [0b10010101#8]⟩ = .ok (.feedNoteOnSt 5#4) ∧
  decodeFrame ⟨.rx, [0b11110101#8]⟩ = .ok (.feedScUndefSt 1#1) ∧
  decodeFrame ⟨.rx, [0b11111010#8]⟩ = .ok (.feedRt 2#3) ∧
  decodeFrame ⟨.txmsg, [0b10100010#8, 0b00111100#8, 0b00010000#8]⟩ = .ok (.encPolyAt 2 0x3C 0x10) ∧
  decodeFrame ⟨.txmsg, [0b11100100#8, 0b00110100#8, 0b00100100#8]⟩ = .ok (.encPb 4 0x1234) ∧
  decodeFrame ⟨.txmsg, [0b11110011#8, 0b00000101#8]⟩ = .ok (.encSysCommon 0xF3#8 [5]) ∧
  decodeFrame ⟨.reset .block, []⟩ = .ok (.reset .block)

/-- R56: the class of every optional status, and R57's count of each class. -/
def Obligations.StatusClassMap : Prop :=
  cls none = .none ∧ arity none = 0 ∧
  ∀ s : Byte,
    (0x80#8 ≤ s ∧ s ≤ 0xBF#8 → cls (some s) = .cv3 ∧ arity (some s) = 2) ∧
    (0xE0#8 ≤ s ∧ s ≤ 0xEF#8 → cls (some s) = .cv3 ∧ arity (some s) = 2) ∧
    (0xC0#8 ≤ s ∧ s ≤ 0xDF#8 → cls (some s) = .cv2 ∧ arity (some s) = 1) ∧
    (s = 0xF2#8 → cls (some s) = .sc2 ∧ arity (some s) = 2) ∧
    (s = 0xF1#8 ∨ s = 0xF3#8 → cls (some s) = .sc1 ∧ arity (some s) = 1) ∧
    (s = 0xF6#8 → cls (some s) = .sc0 ∧ arity (some s) = 0) ∧
    (s = 0xF0#8 ∨ s = 0xF4#8 ∨ s = 0xF5#8 ∨ s = 0xF7#8 →
      cls (some s) = .uncl ∧ arity (some s) = 0) ∧
    (0xF8#8 ≤ s → cls (some s) = .rt ∧ arity (some s) = 0)

/-! ## The step -/

/-- A step takes the host's next move and runs the instruction it decodes to, after taking the move
off the port and, for a byte on `RX`, counting it (R31, R33, R35, R38, R46). -/
def Obligations.StepRunsTheNextMove : Prop :=
  ∀ (s : State) (t : Transfer) (rest : List Transfer), s.inbox = t :: rest →
    step s = exec (decode t) { s with
      inbox := rest
      rxCount := match t with
        | .rx _ => s.rxCount + 1
        | .txmsg _ => s.rxCount
        | .reset _ => s.rxCount }

/-- With no move from the host no step happens: any number of steps holds the state (R31, R142, and
R104's "No time limit"). -/
def Obligations.StateHeldBetweenMoves : Prop :=
  ∀ (s : State) (k : Nat), s.inbox = [] → runSteps k s = .next s

/-- Every byte on `RX` is taken in one step, which completes, emits at most one Message, tagged with
that byte, and leaves the encoder alone (R31, R32, R39, R130). -/
def Obligations.EveryByteIsTaken : Prop :=
  ∀ (s : State) (b : Byte) (rest : List Transfer), s.inbox = .rx b :: rest →
    ∃ t, step s = .next t ∧ t.inbox = rest ∧ t.rxCount = s.rxCount + 1 ∧
      t.cfg = s.cfg ∧ t.txrs = s.txrs ∧ t.txOut = s.txOut ∧
      (t.msgOut = s.msgOut ∨
        ∃ m, m.wellFormed = true ∧ t.msgOut = s.msgOut ++ [(s.rxCount + 1, m)])

/-- The block never halts, refuses or gets stuck on a byte: every finite list of bytes runs to its
end from every state (R46, R130). -/
def Obligations.ByteStreamsRunToTheEnd : Prop :=
  ∀ (bs : List Byte) (s : State), ∃ t, feedAll bs s = .next t ∧ t.inbox = [] ∧
    t.rxCount = s.rxCount + bs.length ∧ s.msgOut <+: t.msgOut ∧
    (newMessages s t).length ≤ bs.length ∧ t.txOut = s.txOut ∧ t.txrs = s.txrs

/-- Under the host's duty every finite list of moves runs to its end, resets among them (R45, R46,
R135, R138). -/
def Obligations.DutifulMovesRunToTheEnd : Prop :=
  ∀ (ts : List Transfer) (s : State), HostDuty ts →
    ∃ t, run ts s = .next t ∧ t.inbox = [] ∧ t.cfg = s.cfg ∧
      s.msgOut <+: t.msgOut ∧ s.txOut <+: t.txOut

/-! ## Status bytes -/

/-- R71: the common action of the channel-voice status bytes. -/
def Obligations.ChannelVoiceStatusAction : Prop :=
  ∀ (b : Byte) (s : State), 0x80#8 ≤ b → b ≤ 0xEF#8 →
    exec (decodeRx b) s =
      .next { s with rs := some b, pend := none, exp := BitVec.ofNat 2 (arity (some b)) }

/-- R72 to R78: each channel-voice status instruction. -/
def Obligations.ChannelVoiceStatusInstructions : Prop :=
  ∀ (n : BitVec 4) (s : State),
    exec (.feedNoteOffSt n) s =
      .next { s with rs := some (0x80#8 ||| n.setWidth 8), pend := none, exp := 2#2 } ∧
    exec (.feedNoteOnSt n) s =
      .next { s with rs := some (0x90#8 ||| n.setWidth 8), pend := none, exp := 2#2 } ∧
    exec (.feedPolyAtSt n) s =
      .next { s with rs := some (0xA0#8 ||| n.setWidth 8), pend := none, exp := 2#2 } ∧
    exec (.feedCcSt n) s =
      .next { s with rs := some (0xB0#8 ||| n.setWidth 8), pend := none, exp := 2#2 } ∧
    exec (.feedPcSt n) s =
      .next { s with rs := some (0xC0#8 ||| n.setWidth 8), pend := none, exp := 1#2 } ∧
    exec (.feedCatSt n) s =
      .next { s with rs := some (0xD0#8 ||| n.setWidth 8), pend := none, exp := 1#2 } ∧
    exec (.feedPbSt n) s =
      .next { s with rs := some (0xE0#8 ||| n.setWidth 8), pend := none, exp := 2#2 }

/-- R79: the common action of 0xF0..0xF5 and 0xF7, and that no channel-voice Message comes after it
until a channel-voice status byte arrives. -/
def Obligations.SystemStatusAction : Prop :=
  ∀ (b : Byte) (s : State), 0xF0#8 ≤ b → b ≤ 0xF7#8 → b ≠ 0xF6#8 →
    ∃ u, exec (decodeRx b) s = .next u ∧
      u = { s with rs := some b, pend := none, exp := BitVec.ofNat 2 (arity (some b)) } ∧
      ∀ (bs : List Byte) (t : State), (∀ x ∈ bs, ¬ voiceByte x) → feedAll bs u = .next t →
        ∀ m ∈ newMessages u t, isVoiceMessage m = false

/-- R80 to R84, R86: each System Common and SysEx status instruction but 0xF6. -/
def Obligations.SystemStatusInstructions : Prop :=
  ∀ (u : BitVec 1) (s : State),
    exec .feedSysexSt s = .next { s with rs := some 0xF0#8, pend := none, exp := 0#2 } ∧
    exec .feedMtcQfSt s = .next { s with rs := some 0xF1#8, pend := none, exp := 1#2 } ∧
    exec .feedSongPosSt s = .next { s with rs := some 0xF2#8, pend := none, exp := 2#2 } ∧
    exec .feedSongSelSt s = .next { s with rs := some 0xF3#8, pend := none, exp := 1#2 } ∧
    exec (.feedScUndefSt u) s =
      .next { s with rs := some (0xF4#8 ||| u.setWidth 8), pend := none, exp := 0#2 } ∧
    exec .feedEoxSt s = .next { s with rs := some 0xF7#8, pend := none, exp := 0#2 }

/-- R85: Tune Request is emitted in its own step, leaves no running status, and a data byte after it
is dropped. -/
def Obligations.TuneRequestEmitted : Prop :=
  ∀ s : State, ∃ t, decodeRx 0xF6#8 = .feedTuneReq ∧ exec .feedTuneReq s = .next t ∧
    t = { s with
      rs := none, pend := none, exp := 0#2
      msgOut := s.msgOut ++ [(s.rxCount, .systemCommon 0xF6#8 [])] } ∧
    ∀ v : Data, exec (.feedData v) t = .next t

/-- R87, R88: a real-time byte, 0xFF among them, is emitted in its own step and changes no register. -/
def Obligations.RealTimeByteEmitted : Prop :=
  (∀ (b : Byte) (s : State), 0xF8#8 ≤ b →
    decodeRx b = .feedRt (b.setWidth 3) ∧
    exec (decodeRx b) s =
      .next { s with msgOut := s.msgOut ++ [(s.rxCount, .systemRealTime b)] }) ∧
  ∀ (c : BitVec 3) (s : State), exec (.feedRt c) s =
    .next { s with msgOut := s.msgOut ++ [(s.rxCount, .systemRealTime (0xF8#8 ||| c.setWidth 8))] }

/-- R89: among the status bytes only 0xF6 and 0xF8..0xFF emit in their own step, and what they emit is
their own Message, never the one in progress. -/
def Obligations.StatusBytesThatEmit : Prop :=
  ∀ (b : Byte) (s : State), 0x80#8 ≤ b → ∃ t, exec (decodeRx b) s = .next t ∧
    (b = 0xF6#8 → t.msgOut = s.msgOut ++ [(s.rxCount, .systemCommon 0xF6#8 [])]) ∧
    (0xF8#8 ≤ b → t.msgOut = s.msgOut ++ [(s.rxCount, .systemRealTime b)]) ∧
    (b ≠ 0xF6#8 → b < 0xF8#8 → t.msgOut = s.msgOut)

/-- R70: a decoder step is the spec's pseudocode `feed(b)`, always completes, and moves between the
phases of R17 and emits as R70's table says. -/
def Obligations.FeedFollowsPseudocodeAndTable : Prop :=
  ∀ (b : Byte) (s : State), ∃ t, exec (decodeRx b) s = .next t ∧ t = Reference.feed b s ∧
    t.phase = Reference.phaseAfter b s.phase (cls s.rs) ∧
    t.msgOut =
      s.msgOut ++ ((Reference.emitted b s.phase s.rs s.pend).toList.map fun m => (s.rxCount, m))

/-! ## Data bytes -/

/-- R90: a data byte is the spec's pseudocode `feed_data(b)`, and always completes. -/
def Obligations.FeedDataFollowsPseudocode : Prop :=
  ∀ (v : Data) (s : State),
    decodeRx (v.setWidth 8) = .feedData v ∧
    exec (.feedData v) s = .next (Reference.feedData (v.setWidth 8) s)

/-- R91, R92: a data byte with no running status, or under an unclassified status, is dropped. -/
def Obligations.DataByteDropped : Prop :=
  ∀ (v : Data) (s : State),
    (s.rs = none → exec (.feedData v) s = .next s) ∧
    (∀ b, s.rs = some b → (b = 0xF0#8 ∨ b = 0xF4#8 ∨ b = 0xF5#8 ∨ b = 0xF7#8) →
      exec (.feedData v) s = .next s)

/-- R93, R99: under 0xCn and 0xDn one data byte completes a Message and changes no register. -/
def Obligations.OneDataByteChannelMessage : Prop :=
  ∀ (n : BitVec 4) (v : Data) (s : State),
    (s.rs = some (0xC0#8 ||| n.setWidth 8) → exec (.feedData v) s =
      .next { s with msgOut := s.msgOut ++ [(s.rxCount, .programChange n.toNat v.toNat)] }) ∧
    (s.rs = some (0xD0#8 ||| n.setWidth 8) → exec (.feedData v) s =
      .next { s with msgOut := s.msgOut ++ [(s.rxCount, .channelAftertouch n.toNat v.toNat)] })

/-- R94: under 0xF1 and 0xF3 one data byte completes the System Common Message and clears `RS`, so a
second data byte is dropped. -/
def Obligations.SystemCommonOneByteCompletes : Prop :=
  ∀ (b : Byte) (v w : Data) (s : State), (b = 0xF1#8 ∨ b = 0xF3#8) → s.rs = some b →
    ∃ t, exec (.feedData v) s = .next t ∧
      t = { s with
        rs := none, exp := 0#2
        msgOut := s.msgOut ++ [(s.rxCount, .systemCommon b [v.toNat])] } ∧
      exec (.feedData w) t = .next t

/-- R95: the first of two data bytes is held. -/
def Obligations.FirstDataByteHeld : Prop :=
  ∀ (b : Byte) (v : Data) (s : State), s.rs = some b → (clsByte b = .cv3 ∨ clsByte b = .sc2) →
    s.pend = none → exec (.feedData v) s = .next { s with pend := some v }

/-- R96, R98: the second data byte completes the Message of a CV3 status, and `RS` stays. -/
def Obligations.TwoDataByteChannelMessage : Prop :=
  ∀ (n : BitVec 4) (p d : Data) (s : State), s.pend = some p →
    (s.rs = some (0x80#8 ||| n.setWidth 8) → exec (.feedData d) s = .next { s with
      pend := none
      msgOut := s.msgOut ++ [(s.rxCount, .noteOff n.toNat p.toNat d.toNat)] }) ∧
    (s.rs = some (0x90#8 ||| n.setWidth 8) → exec (.feedData d) s = .next { s with
      pend := none
      msgOut := s.msgOut ++ [(s.rxCount, .noteOn n.toNat p.toNat d.toNat)] }) ∧
    (s.rs = some (0xA0#8 ||| n.setWidth 8) → exec (.feedData d) s = .next { s with
      pend := none
      msgOut := s.msgOut ++ [(s.rxCount, .polyAftertouch n.toNat p.toNat d.toNat)] }) ∧
    (s.rs = some (0xB0#8 ||| n.setWidth 8) → exec (.feedData d) s = .next { s with
      pend := none
      msgOut := s.msgOut ++ [(s.rxCount, .controlChange n.toNat p.toNat d.toNat)] }) ∧
    (s.rs = some (0xE0#8 ||| n.setWidth 8) → exec (.feedData d) s = .next { s with
      pend := none
      msgOut :=
        s.msgOut ++ [(s.rxCount, .pitchBend n.toNat (p.toNat ||| (d.toNat <<< 7)))] })

/-- R97: the second data byte completes Song Position with its raw data, and clears `RS`. -/
def Obligations.SongPositionCompletes : Prop :=
  ∀ (p d : Data) (s : State), s.rs = some 0xF2#8 → s.pend = some p →
    exec (.feedData d) s = .next { s with
      pend := none, rs := none, exp := 0#2
      msgOut := s.msgOut ++ [(s.rxCount, .systemCommon 0xF2#8 [p.toNat, d.toNat])] }

/-- R100: the pitch-bend value that `[0xEn, d1, d2]` gives from any state, its bounds, and that neither
data byte reaches the other's bits. -/
def Obligations.PitchBendComposition : Prop :=
  ∀ (n : BitVec 4) (d1 d2 : Data) (s : State),
    ∃ t v, feedAll [0xE0#8 ||| n.setWidth 8, d1.setWidth 8, d2.setWidth 8] s = .next t ∧
      newMessages s t = [.pitchBend n.toNat v] ∧
      v = d1.toNat ||| (d2.toNat <<< 7) ∧
      v % 128 = d1.toNat ∧ v / 128 = d2.toNat ∧ v ≤ 16383

/-- R101: a NoteOn with velocity 0 stays a NoteOn, sent in full or under running status. -/
def Obligations.VelocityZeroStaysNoteOn : Prop :=
  ∀ (n : BitVec 4) (key : Data) (s : State),
    (∃ t, feedAll [0x90#8 ||| n.setWidth 8, key.setWidth 8, 0x00#8] s = .next t ∧
      newMessages s t = [.noteOn n.toNat key.toNat 0]) ∧
    (s.rs = some (0x90#8 ||| n.setWidth 8) → s.pend = some key →
      exec (.feedData 0#7) s = .next { s with
        pend := none
        msgOut := s.msgOut ++ [(s.rxCount, .noteOn n.toNat key.toNat 0)] })

/-- R103: under a standing channel-voice status every bare pair (CV3) or byte (CV2) of data gives
another Message of the same kind and channel, for any number of them, and `RS` stays. -/
def Obligations.RunningStatusPersists : Prop :=
  ∀ (b : Byte) (s : State), s.rs = some b → s.pend = none →
    (clsByte b = .cv3 → ∀ ps : List (Data × Data),
      ∃ t, feedAll (ps.flatMap fun p => [p.1.setWidth 8, p.2.setWidth 8]) s = .next t ∧
        SameDecoder t s ∧ (newMessages s t).map some = ps.map fun p => build2 b p.1 p.2) ∧
    (clsByte b = .cv2 → ∀ ds : List Data,
      ∃ t, feedAll (ds.map fun d => d.setWidth 8) s = .next t ∧
        SameDecoder t s ∧ (newMessages s t).map some = ds.map fun d => build1 b d)

/-- R60: where a channel-voice status already stands and nothing is pending, leaving it out changes
neither the Messages nor the registers, whatever bytes follow. -/
def Obligations.RunningStatusForm : Prop :=
  ∀ (b : Byte) (bs : List Byte) (s : State), voiceByte b → DecoderInv s → s.rs = some b →
    s.pend = none →
    ∃ t u, feedAll bs s = .next t ∧ feedAll (b :: bs) s = .next u ∧
      SameDecoder t u ∧ newMessages s t = newMessages s u

/-- R61: real-time bytes at any places in any byte sequence change neither the registers nor the other
Messages, and each is emitted, in order. -/
def Obligations.RealTimeInterleaving : Prop :=
  ∀ (bs : List Byte) (s : State),
    ∃ t u, feedAll bs s = .next t ∧ feedAll (bs.filter fun b => !isRealTime b) s = .next u ∧
      SameDecoder t u ∧
      (newMessages s t).filter (fun m => !isRealTimeMessage m) = newMessages s u ∧
      (newMessages s t).filter isRealTimeMessage =
        (bs.filter isRealTime).map Message.systemRealTime

/-- R58, R92, R156: without a usable running status every data byte is dropped until a status byte
0x80..0xF7 arrives; real-time bytes are emitted and do not end it. -/
def Obligations.DataDroppedUntilStatusByte : Prop :=
  ∀ (bs : List Byte) (s : State), (s.phase = .idle ∨ s.phase = .drop) →
    (∀ b ∈ bs, b < 0x80#8 ∨ 0xF8#8 ≤ b) →
    ∃ t, feedAll bs s = .next t ∧ SameDecoder t s ∧
      newMessages s t = (bs.filter isRealTime).map Message.systemRealTime

/-- R130, R131: any two decoders, whatever they held, agree from the next status byte 0x80..0xF7 on:
the same registers and the same Messages for every byte sequence that begins with it. -/
def Obligations.StatusByteResynchronises : Prop :=
  ∀ (b : Byte) (bs : List Byte) (s₁ s₂ : State), 0x80#8 ≤ b → b ≤ 0xF7#8 →
    ∃ t₁ t₂, feedAll (b :: bs) s₁ = .next t₁ ∧ feedAll (b :: bs) s₂ = .next t₂ ∧
      SameDecoder t₁ t₂ ∧ newMessages s₁ t₁ = newMessages s₂ t₂

/-- R104: what ends a wait. An instruction that changes the phase of a waiting decoder is a status byte
0x80..0xF7, a reset of the decoder, the first of two data bytes, or the data byte that completes the
Message. -/
def Obligations.WhatEndsAWait : Prop :=
  ∀ (i : Instr) (s t : State), DecoderInv s → s.phase ≠ .idle → s.phase ≠ .drop →
    exec i s = .next t → t.phase ≠ s.phase →
    (∃ b : Byte, 0x80#8 ≤ b ∧ b ≤ 0xF7#8 ∧ i = decodeRx b) ∨
    i = .reset .decoder ∨ i = .reset .block ∨
    (∃ v : Data, i = .feedData v ∧ s.phase = .wait2a ∧ t.phase = .wait2b ∧
      t.msgOut = s.msgOut) ∨
    (∃ (v : Data) (m : Message), i = .feedData v ∧ (s.phase = .wait1 ∨ s.phase = .wait2b) ∧
      t.msgOut = s.msgOut ++ [(s.rxCount, m)])

/-! ## Invariants -/

/-- The reset state, for either parameter, meets every invariant (R21, R152). -/
def Obligations.ResetMeetsInvariants : Prop :=
  (∀ c : Config, Inv (State.initial c)) ∧ Inv State.reset

/-- R16 (with R14): every step from a state that meets the decoder's invariants leaves one that does. -/
def Obligations.StepKeepsDecoderInvariant : Prop :=
  ∀ s t : State, DecoderInv s → step s = .next t → DecoderInv t

/-- R18, R121: every step keeps `TXRS` the channel-voice status that stands on the encoder's wire. -/
def Obligations.StepKeepsEncoderInvariant : Prop :=
  ∀ s t : State, EncoderInv s → step s = .next t → EncoderInv t

/-- R40, R102: every step keeps the Messages well-formed and in the order of their bytes. -/
def Obligations.StepKeepsRecordInvariant : Prop :=
  ∀ s t : State, RecordInv s → step s = .next t → RecordInv t

/-- R102: every Message a byte makes the decoder emit is well-formed, from every state. -/
def Obligations.EmittedMessagesWellFormed : Prop :=
  ∀ (b : Byte) (s : State), ∃ t ms, exec (decodeRx b) s = .next t ∧
    t.msgOut = s.msgOut ++ ms ∧ ms.length ≤ 1 ∧
    ∀ e ∈ ms, e.1 = s.rxCount ∧ e.2.wellFormed = true

/-- R15: under the invariant the hardware bits tell none from a value. -/
def Obligations.HardwareBitsTellNone : Prop :=
  ∀ s : State, DecoderInv s → EncoderInv s →
    (s.rs = none ↔ s.rsBits = 0x00#8) ∧ (s.rsValid = s.rs.isSome) ∧
    (∀ b, s.rs = some b → s.rsBits = b) ∧
    (s.pendV = false ↔ s.pend = none) ∧ s.exp ≠ 3#2 ∧
    (s.txrs = none ↔ s.txrsBits = 0x00#8)

/-! ## Reset -/

/-- R21: the reset value of every register: an instance is created with it, and a reset of the block
returns to it from every state. -/
def Obligations.ResetValues : Prop :=
  (∀ c : Config, (State.initial c).rs = none ∧ (State.initial c).pend = none ∧
    (State.initial c).exp = 0#2 ∧ (State.initial c).txrs = none ∧ (State.initial c).cfg = c) ∧
  State.reset.rsBits = 0x00#8 ∧ State.reset.pendV = false ∧ State.reset.txrsBits = 0x00#8 ∧
  State.reset.cfg.encRunningStatus = false ∧
  ∀ s : State, ∃ t, exec (.reset .block) s = .next t ∧ t.rs = none ∧ t.pend = none ∧
    t.exp = 0#2 ∧ (s.cfg.encRunningStatus = true → t.txrs = none) ∧
    t.rsBits = 0x00#8 ∧ t.pendV = false

/-- R150, R151: a reset request for the decoder, the encoder or both. -/
def Obligations.ResetRequest : Prop :=
  ∀ s : State,
    exec (.reset .decoder) s = .next { s with rs := none, pend := none, exp := 0#2 } ∧
    exec (.reset .encoder) s =
      .next { s with txrs := if s.cfg.encRunningStatus then none else s.txrs } ∧
    exec (.reset .block) s = .next { s with
      rs := none, pend := none, exp := 0#2
      txrs := if s.cfg.encRunningStatus then none else s.txrs }

/-! ## Encoder -/

/-- R110: an encode is the spec's pseudocode `encode(m)`. -/
def Obligations.EncodeFollowsPseudocode : Prop :=
  ∀ (m : Message) (s : State), exec (decodeMessage m) s = Reference.encode m s

/-- What R110's `cv` makes of operation `i` with status byte `st` and data bytes `ds`. -/
def VoiceOperation (i : Instr) (st : Byte) (ds : List Byte) : Prop :=
  ∀ s : State,
    (s.cfg.encRunningStatus = false → exec i s = .next { s with txOut := s.txOut ++ st :: ds }) ∧
    (s.cfg.encRunningStatus = true → s.txrs ≠ some st →
      exec i s = .next { s with txrs := some st, txOut := s.txOut ++ st :: ds }) ∧
    (s.cfg.encRunningStatus = true → s.txrs = some st →
      exec i s = .next { s with txOut := s.txOut ++ ds })

/-- R111 to R117, R121, R122: the seven channel-voice operations, with either parameter. -/
def Obligations.ChannelVoiceOperations : Prop :=
  ∀ ch x y : Nat,
    VoiceOperation (.encNoteOff ch x y) (BitVec.ofNat 8 (0x80 + ch % 16))
      [BitVec.ofNat 8 (x % 128), BitVec.ofNat 8 (y % 128)] ∧
    VoiceOperation (.encNoteOn ch x y) (BitVec.ofNat 8 (0x90 + ch % 16))
      [BitVec.ofNat 8 (x % 128), BitVec.ofNat 8 (y % 128)] ∧
    VoiceOperation (.encPolyAt ch x y) (BitVec.ofNat 8 (0xA0 + ch % 16))
      [BitVec.ofNat 8 (x % 128), BitVec.ofNat 8 (y % 128)] ∧
    VoiceOperation (.encCc ch x y) (BitVec.ofNat 8 (0xB0 + ch % 16))
      [BitVec.ofNat 8 (x % 128), BitVec.ofNat 8 (y % 128)] ∧
    VoiceOperation (.encPc ch x) (BitVec.ofNat 8 (0xC0 + ch % 16)) [BitVec.ofNat 8 (x % 128)] ∧
    VoiceOperation (.encCat ch x) (BitVec.ofNat 8 (0xD0 + ch % 16)) [BitVec.ofNat 8 (x % 128)] ∧
    VoiceOperation (.encPb ch x) (BitVec.ofNat 8 (0xE0 + ch % 16))
      [BitVec.ofNat 8 (x % 128), BitVec.ofNat 8 (x / 128 % 128)]

/-- R118: a constructible System Common Message is sent with its status byte whatever the parameter,
and clears `TXRS` where it is present; any other is refused. -/
def Obligations.SystemCommonOperation : Prop :=
  ∀ (code : Byte) (data : List Nat) (s : State),
    ((code = 0xF1#8 ∨ code = 0xF2#8 ∨ code = 0xF3#8 ∨ code = 0xF6#8) →
      data.length = arity (some code) →
      exec (.encSysCommon code data) s = .next { s with
        txrs := if s.cfg.encRunningStatus then none else s.txrs
        txOut := s.txOut ++ code :: data.map fun d => BitVec.ofNat 8 (d % 128) }) ∧
    ((code ≠ 0xF1#8 ∧ code ≠ 0xF2#8 ∧ code ≠ 0xF3#8 ∧ code ≠ 0xF6#8) ∨
        data.length ≠ arity (some code) →
      exec (.encSysCommon code data) s =
        .refused (.notConstructible (.systemCommon code data)))

/-- R119: a real-time Message is one byte, and changes no register. -/
def Obligations.RealTimeOperation : Prop :=
  ∀ (code : Byte) (s : State),
    (0xF8#8 ≤ code → exec (.encRt code) s = .next { s with txOut := s.txOut ++ [code] }) ∧
    (code < 0xF8#8 → exec (.encRt code) s = .refused (.notConstructible (.systemRealTime code)))

/-- R120: exactly the Messages that are not constructible are refused, and the block never faults. -/
def Obligations.RefusedExactlyWhenNotConstructible : Prop :=
  ∀ (m : Message) (s : State),
    ((∃ c, m = .systemRealTime c ∧ c < 0xF8#8) ∨
      (∃ c ds, m = .systemCommon c ds ∧
        ((c ≠ 0xF1#8 ∧ c ≠ 0xF2#8 ∧ c ≠ 0xF3#8 ∧ c ≠ 0xF6#8) ∨ ds.length ≠ arity (some c))) →
      exec (decodeMessage m) s = .refused (.notConstructible m)) ∧
    ((∀ c, m = .systemRealTime c → 0xF8#8 ≤ c) →
      (∀ c ds, m = .systemCommon c ds →
        (c = 0xF1#8 ∨ c = 0xF2#8 ∨ c = 0xF3#8 ∨ c = 0xF6#8) ∧ ds.length = arity (some c)) →
      ∃ t, exec (decodeMessage m) s = .next t ∧ DecoderUntouched s t)

/-- R59, R122: without running-status compression the encoder puts out the full wire form of the
masked Message: one status byte, then data bytes with bit 7 clear; a well-formed Message is its own
masked form. -/
def Obligations.FullWireFormSent : Prop :=
  ∀ (m : Message) (s : State), constructible m = true → s.cfg.encRunningStatus = false →
    exec (decodeMessage m) s = .next { s with txOut := s.txOut ++ wireForm (masked m) } ∧
    (∃ st ds, wireForm (masked m) = st :: ds ∧ 0x80#8 ≤ st ∧ ∀ d ∈ ds, d < 0x80#8) ∧
    (masked m).wellFormed = true ∧ (m.wellFormed = true → masked m = m)

/-- R124: the only ways `TXRS` changes. -/
def Obligations.TxrsChanges : Prop :=
  ∀ (i : Instr) (s t : State), exec i s = .next t → t.txrs ≠ s.txrs →
    s.cfg.encRunningStatus = true ∧
    ((∃ (m : Message) (b : Byte), i = decodeMessage m ∧ isVoiceMessage m = true ∧ voiceByte b ∧
        t.txrs = some b ∧ ∃ ds, t.txOut = s.txOut ++ b :: ds) ∨
      (∃ code data, i = .encSysCommon code data ∧ t.txrs = none) ∨
      ((i = .reset .encoder ∨ i = .reset .block) ∧ t.txrs = none))

/-- R125: the length of each operation's output, with the status byte and without. -/
def Obligations.OutputLengths : Prop :=
  ∀ (m : Message) (s : State), constructible m = true →
    ∃ t bs, exec (decodeMessage m) s = .next t ∧ t.txOut = s.txOut ++ bs ∧
      1 ≤ bs.length ∧ bs.length ≤ 3 ∧
      (isVoiceMessage m = true →
        ∃ st, (wireForm (masked m)).head? = some st ∧
          bs.length = if s.cfg.encRunningStatus = true ∧ s.txrs = some st
            then arity (some st) else 1 + arity (some st)) ∧
      (∀ code data, m = .systemCommon code data → bs.length = 1 + arity (some code)) ∧
      (∀ code, m = .systemRealTime code → bs.length = 1)

/-- R123: the round trip of one constructible Message through an encoder and any decoder that agrees
with it, with either parameter: exactly one Message, on the last byte, the masked one (the Message
itself when it is well-formed), and agreement holds again. It holds at reset. -/
def Obligations.RoundTrip : Prop :=
  (∀ (m : Message) (e d : State), constructible m = true → Agree e d →
    ∃ e' bs d', exec (decodeMessage m) e = .next e' ∧ e'.txOut = e.txOut ++ bs ∧
      feedAll bs d = .next d' ∧
      d'.msgOut = d.msgOut ++ [(d.rxCount + bs.length, masked m)] ∧
      (m.wellFormed = true → masked m = m) ∧ Agree e' d') ∧
  (∀ (c : Config) (d : State), Agree (State.initial c) d)

/-- R123, R158, R159: a whole list of constructible Messages, encoded in order and fed to an agreeing
decoder, comes back in order. -/
def Obligations.MessageListRoundTrip : Prop :=
  ∀ (ms : List Message) (e d : State), (∀ m ∈ ms, constructible m = true) → Agree e d →
    ∃ e' d', encodeAll ms e = .next e' ∧ feedAll (newBytes e e') d = .next d' ∧
      newMessages d d' = ms.map masked ∧ Agree e' d'

/-! ## Independence -/

/-- R43, R22, R137.5: an encode leaves the decoder alone, a feed leaves the encoder alone, and the two
give the same state in either order. -/
def Obligations.DecoderAndEncoderIndependent : Prop :=
  ∀ (b : Byte) (m : Message) (s : State),
    ∃ t, exec (decodeRx b) s = .next t ∧ EncoderUntouched s t ∧
      (constructible m = true → ∃ u v, exec (decodeMessage m) s = .next u ∧ DecoderUntouched s u ∧
        exec (decodeMessage m) t = .next v ∧ exec (decodeRx b) u = .next v)

/-- R20, R140: a step of one instance reads and writes only that instance. -/
def Obligations.InstancesIndependent : Prop :=
  ∀ (xs : Instances) (k : Nat) (s : State), xs[k]? = some s →
    (∀ t, step s = .next t → ∃ ys, Instances.stepAt k xs = .next ys ∧ ys[k]? = some t ∧
      ys.length = xs.length ∧ ∀ j, j ≠ k → ys[j]? = xs[j]?) ∧
    (∀ r, step s = .refused r → Instances.stepAt k xs = .refused r)

/-- R152, R20: a created instance is in the reset state, and the others are as they were. -/
def Obligations.CreatedInstanceIsReset : Prop :=
  ∀ (c : Config) (xs : Instances),
    (Instances.create c xs)[xs.length]? = some (State.initial c) ∧
    ∀ k, k < xs.length → (Instances.create c xs)[k]? = xs[k]?

/-- R19: no step changes a parameter. -/
def Obligations.ParametersNeverChange : Prop :=
  ∀ s t : State, step s = .next t → t.cfg = s.cfg

/-- R22, R43: what a byte does to the decoder and what it emits do not depend on the encoder, its
parameter or its output. -/
def Obligations.DecoderDoesNotSeeEncoder : Prop :=
  ∀ (bs : List Byte) (s₁ s₂ : State), SameDecoder s₁ s₂ →
    ∃ t₁ t₂, feedAll bs s₁ = .next t₁ ∧ feedAll bs s₂ = .next t₂ ∧ SameDecoder t₁ t₂ ∧
      newMessages s₁ t₁ = newMessages s₂ t₂

/-- R32, D14, R153: `MSG` carries every kind of Message, and a host gets a decoded Message exactly when
it handles that kind, whatever other kinds it handles. From every decoder state, the full wire form
of a well-formed Message adds that Message, on its last byte, to what a host with handlers for its
kind gets, and nothing to what any other host gets; and each kind has such a Message. Handlers as a
list of kinds and the record they are filtered from are the model's choice (log entries 2 and 14). -/
def Obligations.HandlersAreIndependent : Prop :=
  (∀ (m : Message) (s : State), m.wellFormed = true →
    ∃ t, feedAll (wireForm m) s = .next t ∧ ∀ ks : List MessageKind,
      delivered ks t = delivered ks s ++
        if kindOf m ∈ ks then [(s.rxCount + (wireForm m).length, m)] else []) ∧
  ∀ k : MessageKind, ∃ m : Message, m.wellFormed = true ∧ kindOf m = k
end

