-- ==== Sys2Proof/Laws/Decode.lean ====
section
/-! SUPPORT. Facts about bytes and bit fields that the decoder and the encoder rest on. -/

namespace Sys2Proof

/-- The status bytes are 0x80..0xFF, the data bytes the rest (R50). -/
theorem isStatus_iff (b : Byte) : isStatus b = true ↔ 0x80#8 ≤ b := by
  revert b; decide

theorem isStatus_eq_false (b : Byte) : isStatus b = false ↔ b < 0x80#8 := by
  revert b; decide

/-- A data byte decodes to its value (R50, R52). -/
theorem decodeRx_data (d : Data) : decodeRx (d.setWidth 8) = .feedData d := by
  revert d; decide

theorem dataBits_setWidth (d : Data) : dataBits (d.setWidth 8) = d := by
  revert d; decide

theorem setWidth_dataBits {b : Byte} (h : b < 0x80#8) : (dataBits b).setWidth 8 = b := by
  revert b; decide

theorem decodeRx_of_data {b : Byte} (h : b < 0x80#8) : decodeRx b = .feedData (dataBits b) := by
  revert b; decide

/-- A real-time byte decodes to FEED_RT, and its operand gives the byte back (R54, R87). -/
theorem decodeRx_of_realTime {b : Byte} (h : 0xF8#8 ≤ b) : decodeRx b = .feedRt (b.setWidth 3) := by
  revert b; decide

theorem realTime_byte {b : Byte} (h : 0xF8#8 ≤ b) : 0xF8#8 ||| (b.setWidth 3).setWidth 8 = b := by
  revert b; decide

end Sys2Proof
end

