-- ==== Sys2Proof/Laws/Messages.lean ====
section
/-! SUPPORT. The shapes of a constructible Message, and what reaches a host's handlers. -/

namespace Sys2Proof.Machine

/-- What a constructible Message is: a channel-voice one with any fields, a real-time one with its code
in range, or one of the four System Common forms (R120). -/
theorem constructible_cases {m : Message} (h : constructible m = true) :
    isVoiceMessage m = true ∨ (∃ c, m = .systemRealTime c ∧ 0xF8#8 ≤ c) ∨
    (∃ d, m = .systemCommon 0xF1#8 [d]) ∨ (∃ d e, m = .systemCommon 0xF2#8 [d, e]) ∨
    (∃ d, m = .systemCommon 0xF3#8 [d]) ∨ m = .systemCommon 0xF6#8 [] := by
  cases m
  case systemRealTime c =>
    exact .inr (.inl ⟨c, rfl, by simpa [constructible] using h⟩)
  case systemCommon c ds =>
    simp only [constructible, commonCode, Bool.and_eq_true, Bool.or_eq_true, beq_iff_eq] at h
    obtain ⟨((rfl | rfl) | rfl) | rfl, hl⟩ := h
    · obtain ⟨d, rfl⟩ := List.length_eq_one_iff.mp (hl.trans (by decide))
      exact .inr (.inr (.inl ⟨d, rfl⟩))
    · obtain ⟨d, e, rfl⟩ := List.length_eq_two.mp (hl.trans (by decide))
      exact .inr (.inr (.inr (.inl ⟨d, e, rfl⟩)))
    · obtain ⟨d, rfl⟩ := List.length_eq_one_iff.mp (hl.trans (by decide))
      exact .inr (.inr (.inr (.inr (.inl ⟨d, rfl⟩))))
    · have hd := List.length_eq_zero_iff.mp (hl.trans (by decide))
      subst hd
      exact .inr (.inr (.inr (.inr (.inr rfl))))
  all_goals exact .inl rfl

/-- What one more Message on `MSG` adds to what a host with handlers for `ks` gets (R32). -/
theorem delivered_of_msgOut {s t : State} {e : Nat × Message} (h : t.msgOut = s.msgOut ++ [e])
    (ks : List MessageKind) :
    delivered ks t = delivered ks s ++ if kindOf e.2 ∈ ks then [e] else [] := by
  by_cases hk : kindOf e.2 ∈ ks <;> simp [delivered, h, hk]

end Sys2Proof.Machine
end

