-- ==== Sys2Proof/Laws/Operands.lean ====
section
/-! SUPPORT. What the operand functions give: classes, builders, and the encoder's masks. -/

namespace Sys2Proof.Machine

/-- `EXP` never takes the value 3 (R14). -/
theorem expOf_ne_three (s : Option Byte) : expOf s ≠ 3#2 := by
  cases s with
  | none => decide
  | some b => revert b; decide

/-- A builder of R98 gives a Message exactly for a CV3 status. -/
theorem build2_isSome (s : Byte) (d1 d2 : Data) :
    (build2 s d1 d2).isSome = decide (clsByte s = .cv3) := by
  have h : ∀ s : Byte, decide (clsByte s = .cv3) =
      (s &&& 0xF0#8 == 0x80#8 || s &&& 0xF0#8 == 0x90#8 || s &&& 0xF0#8 == 0xA0#8 ||
        s &&& 0xF0#8 == 0xB0#8 || s &&& 0xF0#8 == 0xE0#8) := by decide
  rw [h]; unfold build2
  split <;> simp_all

/-- A builder of R99 gives a Message exactly for a CV2 status. -/
theorem build1_isSome (s : Byte) (d : Data) :
    (build1 s d).isSome = decide (clsByte s = .cv2) := by
  have h : ∀ s : Byte, decide (clsByte s = .cv2) =
      (s &&& 0xF0#8 == 0xC0#8 || s &&& 0xF0#8 == 0xD0#8) := by decide
  rw [h]; unfold build1
  split <;> simp_all

/-- The channel of a status byte is in range (R11). -/
theorem channelOf_le (s : Byte) : channelOf s ≤ 15 := by
  revert s; decide

/-- The pitch-bend value as a sum: the two data values do not overlap (R100). -/
theorem pitchBendValue_eq (d1 d2 : Data) : pitchBendValue d1 d2 = d1.toNat + 128 * d2.toNat := by
  unfold pitchBendValue
  have h : d2.toNat <<< 7 = 2 ^ 7 * d2.toNat := by rw [Nat.shiftLeft_eq]; ring
  rw [h, Nat.or_comm, ← Nat.two_pow_add_eq_or_of_lt d1.isLt]
  omega

/-- A Message of R98 is well-formed (R102). -/
theorem build2_wellFormed {s : Byte} {d1 d2 : Data} {m : Message} (h : build2 s d1 d2 = some m) :
    m.wellFormed = true := by
  have hc := channelOf_le s
  have h1 := d1.isLt
  have h2 := d2.isLt
  unfold build2 at h
  split at h <;> simp only [Option.some.injEq, reduceCtorEq] at h <;> subst h <;>
    simp [Message.wellFormed, channelOk, dataOk, pitchBendValue_eq] <;> omega

/-- A Message of R99 is well-formed (R102). -/
theorem build1_wellFormed {s : Byte} {d : Data} {m : Message} (h : build1 s d = some m) :
    m.wellFormed = true := by
  have hc := channelOf_le s
  have h1 := d.isLt
  unfold build1 at h
  split at h <;> simp only [Option.some.injEq, reduceCtorEq] at h <;> subst h <;>
    simp [Message.wellFormed, channelOk, dataOk] <;> omega

/-- A byte's value cut to 8 bits and masked is the byte of its low 7 bits (R122). -/
theorem dataByte_eq (v : Nat) : dataByte v = (BitVec.ofNat 7 v).setWidth 8 := by
  have h := Nat.and_two_pow_sub_one_eq_mod (v % 256) 7
  norm_num at h
  apply BitVec.eq_of_toNat_eq
  simp [dataByte, BitVec.toNat_and, h]
  omega

theorem dataByte_eq_mod (v : Nat) : dataByte v = BitVec.ofNat 8 (v % 128) := by
  rw [dataByte_eq]; apply BitVec.eq_of_toNat_eq; simp

/-- No data byte of the encoder has bit 7 set (R122). -/
theorem dataByte_lt (v : Nat) : dataByte v < 0x80#8 := by
  rw [dataByte_eq]; generalize BitVec.ofNat 7 v = d; revert d; decide

/-- The status byte of a channel-voice operation from its 4-bit channel (R122). -/
theorem voiceStatus_eq (base : Byte) (ch : Nat) :
    voiceStatus base ch = base ||| (BitVec.ofNat 4 ch).setWidth 8 := by
  have h := Nat.and_two_pow_sub_one_eq_mod (ch % 256) 4
  norm_num at h
  unfold voiceStatus
  congr 1
  apply BitVec.eq_of_toNat_eq
  simp [BitVec.toNat_and, h]
  omega

end Sys2Proof.Machine
end

