-- ==== Sys2Proof/Laws/State.lean ====
section
/-! SUPPORT. One lemma per field per update of State, so that no proof unfolds a record update. -/

namespace Sys2Proof.Machine

/-! `State.emit` -/

@[simp] theorem State.emit_cfg (m : Message) (s : State) :
    (s.emit m).cfg = s.cfg := rfl
@[simp] theorem State.emit_rs (m : Message) (s : State) :
    (s.emit m).rs = s.rs := rfl
@[simp] theorem State.emit_pend (m : Message) (s : State) :
    (s.emit m).pend = s.pend := rfl
@[simp] theorem State.emit_exp (m : Message) (s : State) :
    (s.emit m).exp = s.exp := rfl
@[simp] theorem State.emit_txrs (m : Message) (s : State) :
    (s.emit m).txrs = s.txrs := rfl
@[simp] theorem State.emit_inbox (m : Message) (s : State) :
    (s.emit m).inbox = s.inbox := rfl
@[simp] theorem State.emit_rxCount (m : Message) (s : State) :
    (s.emit m).rxCount = s.rxCount := rfl
@[simp] theorem State.emit_msgOut (m : Message) (s : State) :
    (s.emit m).msgOut = s.msgOut ++ [(s.rxCount, m)] := rfl
@[simp] theorem State.emit_txOut (m : Message) (s : State) :
    (s.emit m).txOut = s.txOut := rfl

/-! `State.setStatus` -/

@[simp] theorem State.setStatus_cfg (b : Byte) (s : State) :
    (s.setStatus b).cfg = s.cfg := rfl
@[simp] theorem State.setStatus_rs (b : Byte) (s : State) :
    (s.setStatus b).rs = some b := rfl
@[simp] theorem State.setStatus_pend (b : Byte) (s : State) :
    (s.setStatus b).pend = none := rfl
@[simp] theorem State.setStatus_exp (b : Byte) (s : State) :
    (s.setStatus b).exp = expOf (some b) := rfl
@[simp] theorem State.setStatus_txrs (b : Byte) (s : State) :
    (s.setStatus b).txrs = s.txrs := rfl
@[simp] theorem State.setStatus_inbox (b : Byte) (s : State) :
    (s.setStatus b).inbox = s.inbox := rfl
@[simp] theorem State.setStatus_rxCount (b : Byte) (s : State) :
    (s.setStatus b).rxCount = s.rxCount := rfl
@[simp] theorem State.setStatus_msgOut (b : Byte) (s : State) :
    (s.setStatus b).msgOut = s.msgOut := rfl
@[simp] theorem State.setStatus_txOut (b : Byte) (s : State) :
    (s.setStatus b).txOut = s.txOut := rfl

/-! `State.clearDecoder` -/

@[simp] theorem State.clearDecoder_cfg (s : State) :
    (s.clearDecoder).cfg = s.cfg := rfl
@[simp] theorem State.clearDecoder_rs (s : State) :
    (s.clearDecoder).rs = none := rfl
@[simp] theorem State.clearDecoder_pend (s : State) :
    (s.clearDecoder).pend = none := rfl
@[simp] theorem State.clearDecoder_exp (s : State) :
    (s.clearDecoder).exp = 0#2 := rfl
@[simp] theorem State.clearDecoder_txrs (s : State) :
    (s.clearDecoder).txrs = s.txrs := rfl
@[simp] theorem State.clearDecoder_inbox (s : State) :
    (s.clearDecoder).inbox = s.inbox := rfl
@[simp] theorem State.clearDecoder_rxCount (s : State) :
    (s.clearDecoder).rxCount = s.rxCount := rfl
@[simp] theorem State.clearDecoder_msgOut (s : State) :
    (s.clearDecoder).msgOut = s.msgOut := rfl
@[simp] theorem State.clearDecoder_txOut (s : State) :
    (s.clearDecoder).txOut = s.txOut := rfl

/-! `State.endCommon` -/

@[simp] theorem State.endCommon_cfg (s : State) :
    (s.endCommon).cfg = s.cfg := rfl
@[simp] theorem State.endCommon_rs (s : State) :
    (s.endCommon).rs = none := rfl
@[simp] theorem State.endCommon_pend (s : State) :
    (s.endCommon).pend = s.pend := rfl
@[simp] theorem State.endCommon_exp (s : State) :
    (s.endCommon).exp = 0#2 := rfl
@[simp] theorem State.endCommon_txrs (s : State) :
    (s.endCommon).txrs = s.txrs := rfl
@[simp] theorem State.endCommon_inbox (s : State) :
    (s.endCommon).inbox = s.inbox := rfl
@[simp] theorem State.endCommon_rxCount (s : State) :
    (s.endCommon).rxCount = s.rxCount := rfl
@[simp] theorem State.endCommon_msgOut (s : State) :
    (s.endCommon).msgOut = s.msgOut := rfl
@[simp] theorem State.endCommon_txOut (s : State) :
    (s.endCommon).txOut = s.txOut := rfl

/-! `State.hold` -/

@[simp] theorem State.hold_cfg (d : Data) (s : State) :
    (s.hold d).cfg = s.cfg := rfl
@[simp] theorem State.hold_rs (d : Data) (s : State) :
    (s.hold d).rs = s.rs := rfl
@[simp] theorem State.hold_pend (d : Data) (s : State) :
    (s.hold d).pend = some d := rfl
@[simp] theorem State.hold_exp (d : Data) (s : State) :
    (s.hold d).exp = s.exp := rfl
@[simp] theorem State.hold_txrs (d : Data) (s : State) :
    (s.hold d).txrs = s.txrs := rfl
@[simp] theorem State.hold_inbox (d : Data) (s : State) :
    (s.hold d).inbox = s.inbox := rfl
@[simp] theorem State.hold_rxCount (d : Data) (s : State) :
    (s.hold d).rxCount = s.rxCount := rfl
@[simp] theorem State.hold_msgOut (d : Data) (s : State) :
    (s.hold d).msgOut = s.msgOut := rfl
@[simp] theorem State.hold_txOut (d : Data) (s : State) :
    (s.hold d).txOut = s.txOut := rfl

/-! `State.release` -/

@[simp] theorem State.release_cfg (s : State) :
    (s.release).cfg = s.cfg := rfl
@[simp] theorem State.release_rs (s : State) :
    (s.release).rs = s.rs := rfl
@[simp] theorem State.release_pend (s : State) :
    (s.release).pend = none := rfl
@[simp] theorem State.release_exp (s : State) :
    (s.release).exp = s.exp := rfl
@[simp] theorem State.release_txrs (s : State) :
    (s.release).txrs = s.txrs := rfl
@[simp] theorem State.release_inbox (s : State) :
    (s.release).inbox = s.inbox := rfl
@[simp] theorem State.release_rxCount (s : State) :
    (s.release).rxCount = s.rxCount := rfl
@[simp] theorem State.release_msgOut (s : State) :
    (s.release).msgOut = s.msgOut := rfl
@[simp] theorem State.release_txOut (s : State) :
    (s.release).txOut = s.txOut := rfl

/-! `State.out` -/

@[simp] theorem State.out_cfg (bs : List Byte) (s : State) :
    (s.out bs).cfg = s.cfg := rfl
@[simp] theorem State.out_rs (bs : List Byte) (s : State) :
    (s.out bs).rs = s.rs := rfl
@[simp] theorem State.out_pend (bs : List Byte) (s : State) :
    (s.out bs).pend = s.pend := rfl
@[simp] theorem State.out_exp (bs : List Byte) (s : State) :
    (s.out bs).exp = s.exp := rfl
@[simp] theorem State.out_txrs (bs : List Byte) (s : State) :
    (s.out bs).txrs = s.txrs := rfl
@[simp] theorem State.out_inbox (bs : List Byte) (s : State) :
    (s.out bs).inbox = s.inbox := rfl
@[simp] theorem State.out_rxCount (bs : List Byte) (s : State) :
    (s.out bs).rxCount = s.rxCount := rfl
@[simp] theorem State.out_msgOut (bs : List Byte) (s : State) :
    (s.out bs).msgOut = s.msgOut := rfl
@[simp] theorem State.out_txOut (bs : List Byte) (s : State) :
    (s.out bs).txOut = s.txOut ++ bs := rfl

/-! `State.load` -/

@[simp] theorem State.load_cfg (ts : List Transfer) (s : State) :
    (s.load ts).cfg = s.cfg := rfl
@[simp] theorem State.load_rs (ts : List Transfer) (s : State) :
    (s.load ts).rs = s.rs := rfl
@[simp] theorem State.load_pend (ts : List Transfer) (s : State) :
    (s.load ts).pend = s.pend := rfl
@[simp] theorem State.load_exp (ts : List Transfer) (s : State) :
    (s.load ts).exp = s.exp := rfl
@[simp] theorem State.load_txrs (ts : List Transfer) (s : State) :
    (s.load ts).txrs = s.txrs := rfl
@[simp] theorem State.load_inbox (ts : List Transfer) (s : State) :
    (s.load ts).inbox = ts := rfl
@[simp] theorem State.load_rxCount (ts : List Transfer) (s : State) :
    (s.load ts).rxCount = s.rxCount := rfl
@[simp] theorem State.load_msgOut (ts : List Transfer) (s : State) :
    (s.load ts).msgOut = s.msgOut := rfl
@[simp] theorem State.load_txOut (ts : List Transfer) (s : State) :
    (s.load ts).txOut = s.txOut := rfl

/-! `State.offer` -/

@[simp] theorem State.offer_cfg (i : Instr) (s : State) :
    (s.offer i).cfg = s.cfg := rfl
@[simp] theorem State.offer_rs (i : Instr) (s : State) :
    (s.offer i).rs = s.rs := rfl
@[simp] theorem State.offer_pend (i : Instr) (s : State) :
    (s.offer i).pend = s.pend := rfl
@[simp] theorem State.offer_exp (i : Instr) (s : State) :
    (s.offer i).exp = s.exp := rfl
@[simp] theorem State.offer_txrs (i : Instr) (s : State) :
    (s.offer i).txrs = s.txrs := rfl
@[simp] theorem State.offer_inbox (i : Instr) (s : State) :
    (s.offer i).inbox = encode i :: s.inbox := rfl
@[simp] theorem State.offer_rxCount (i : Instr) (s : State) :
    (s.offer i).rxCount = s.rxCount := rfl
@[simp] theorem State.offer_msgOut (i : Instr) (s : State) :
    (s.offer i).msgOut = s.msgOut := rfl
@[simp] theorem State.offer_txOut (i : Instr) (s : State) :
    (s.offer i).txOut = s.txOut := rfl

/-! `State.emitBuilt`: only the record of `MSG` can change. -/

@[simp] theorem State.emitBuilt_cfg (m : Option Message) (s : State) :
    (s.emitBuilt m).cfg = s.cfg := by
  cases m <;> rfl
@[simp] theorem State.emitBuilt_rs (m : Option Message) (s : State) :
    (s.emitBuilt m).rs = s.rs := by
  cases m <;> rfl
@[simp] theorem State.emitBuilt_pend (m : Option Message) (s : State) :
    (s.emitBuilt m).pend = s.pend := by
  cases m <;> rfl
@[simp] theorem State.emitBuilt_exp (m : Option Message) (s : State) :
    (s.emitBuilt m).exp = s.exp := by
  cases m <;> rfl
@[simp] theorem State.emitBuilt_txrs (m : Option Message) (s : State) :
    (s.emitBuilt m).txrs = s.txrs := by
  cases m <;> rfl
@[simp] theorem State.emitBuilt_inbox (m : Option Message) (s : State) :
    (s.emitBuilt m).inbox = s.inbox := by
  cases m <;> rfl
@[simp] theorem State.emitBuilt_rxCount (m : Option Message) (s : State) :
    (s.emitBuilt m).rxCount = s.rxCount := by
  cases m <;> rfl
@[simp] theorem State.emitBuilt_msgOut (m : Option Message) (s : State) :
    (s.emitBuilt m).msgOut = s.msgOut ++ m.toList.map fun x => (s.rxCount, x) := by
  cases m <;> simp [State.emitBuilt]
@[simp] theorem State.emitBuilt_txOut (m : Option Message) (s : State) :
    (s.emitBuilt m).txOut = s.txOut := by
  cases m <;> rfl

/-! `State.setTxrs`: only `TXRS` can change, and only where it is present. -/

@[simp] theorem State.setTxrs_cfg (v : Option Byte) (s : State) :
    (s.setTxrs v).cfg = s.cfg := by
  unfold State.setTxrs; split <;> rfl
@[simp] theorem State.setTxrs_rs (v : Option Byte) (s : State) :
    (s.setTxrs v).rs = s.rs := by
  unfold State.setTxrs; split <;> rfl
@[simp] theorem State.setTxrs_pend (v : Option Byte) (s : State) :
    (s.setTxrs v).pend = s.pend := by
  unfold State.setTxrs; split <;> rfl
@[simp] theorem State.setTxrs_exp (v : Option Byte) (s : State) :
    (s.setTxrs v).exp = s.exp := by
  unfold State.setTxrs; split <;> rfl
@[simp] theorem State.setTxrs_txrs (v : Option Byte) (s : State) :
    (s.setTxrs v).txrs = if s.cfg.encRunningStatus then v else s.txrs := by
  unfold State.setTxrs; split <;> rfl
@[simp] theorem State.setTxrs_inbox (v : Option Byte) (s : State) :
    (s.setTxrs v).inbox = s.inbox := by
  unfold State.setTxrs; split <;> rfl
@[simp] theorem State.setTxrs_rxCount (v : Option Byte) (s : State) :
    (s.setTxrs v).rxCount = s.rxCount := by
  unfold State.setTxrs; split <;> rfl
@[simp] theorem State.setTxrs_msgOut (v : Option Byte) (s : State) :
    (s.setTxrs v).msgOut = s.msgOut := by
  unfold State.setTxrs; split <;> rfl
@[simp] theorem State.setTxrs_txOut (v : Option Byte) (s : State) :
    (s.setTxrs v).txOut = s.txOut := by
  unfold State.setTxrs; split <;> rfl

/-! `State.clearEncoder` -/

@[simp] theorem State.clearEncoder_cfg (s : State) : s.clearEncoder.cfg = s.cfg :=
  State.setTxrs_cfg none s
@[simp] theorem State.clearEncoder_rs (s : State) : s.clearEncoder.rs = s.rs :=
  State.setTxrs_rs none s
@[simp] theorem State.clearEncoder_pend (s : State) : s.clearEncoder.pend = s.pend :=
  State.setTxrs_pend none s
@[simp] theorem State.clearEncoder_exp (s : State) : s.clearEncoder.exp = s.exp :=
  State.setTxrs_exp none s
@[simp] theorem State.clearEncoder_txrs (s : State) :
    s.clearEncoder.txrs = if s.cfg.encRunningStatus then none else s.txrs :=
  State.setTxrs_txrs none s
@[simp] theorem State.clearEncoder_inbox (s : State) : s.clearEncoder.inbox = s.inbox :=
  State.setTxrs_inbox none s
@[simp] theorem State.clearEncoder_rxCount (s : State) : s.clearEncoder.rxCount = s.rxCount :=
  State.setTxrs_rxCount none s
@[simp] theorem State.clearEncoder_msgOut (s : State) : s.clearEncoder.msgOut = s.msgOut :=
  State.setTxrs_msgOut none s
@[simp] theorem State.clearEncoder_txOut (s : State) : s.clearEncoder.txOut = s.txOut :=
  State.setTxrs_txOut none s

/-! `State.sendVoice`: only `TXRS` and the record of `TX` can change. -/

@[simp] theorem State.sendVoice_cfg (st : Byte) (ds : List Byte) (s : State) :
    (s.sendVoice st ds).cfg = s.cfg := by
  unfold State.sendVoice; split <;> simp
@[simp] theorem State.sendVoice_rs (st : Byte) (ds : List Byte) (s : State) :
    (s.sendVoice st ds).rs = s.rs := by
  unfold State.sendVoice; split <;> simp
@[simp] theorem State.sendVoice_pend (st : Byte) (ds : List Byte) (s : State) :
    (s.sendVoice st ds).pend = s.pend := by
  unfold State.sendVoice; split <;> simp
@[simp] theorem State.sendVoice_exp (st : Byte) (ds : List Byte) (s : State) :
    (s.sendVoice st ds).exp = s.exp := by
  unfold State.sendVoice; split <;> simp
@[simp] theorem State.sendVoice_txrs (st : Byte) (ds : List Byte) (s : State) :
    (s.sendVoice st ds).txrs = if s.cfg.encRunningStatus then some st else s.txrs := by
  unfold State.sendVoice State.statusLeftOut
  split <;> simp_all
@[simp] theorem State.sendVoice_inbox (st : Byte) (ds : List Byte) (s : State) :
    (s.sendVoice st ds).inbox = s.inbox := by
  unfold State.sendVoice; split <;> simp
@[simp] theorem State.sendVoice_rxCount (st : Byte) (ds : List Byte) (s : State) :
    (s.sendVoice st ds).rxCount = s.rxCount := by
  unfold State.sendVoice; split <;> simp
@[simp] theorem State.sendVoice_msgOut (st : Byte) (ds : List Byte) (s : State) :
    (s.sendVoice st ds).msgOut = s.msgOut := by
  unfold State.sendVoice; split <;> simp
@[simp] theorem State.sendVoice_txOut (st : Byte) (ds : List Byte) (s : State) :
    (s.sendVoice st ds).txOut = s.txOut ++ if s.statusLeftOut st then ds else st :: ds := by
  unfold State.sendVoice
  split <;> simp_all

/-- Two states with the same fields are the same state. -/
theorem State.eq_of_fields {s t : State} (h1 : s.cfg = t.cfg) (h2 : s.rs = t.rs)
    (h3 : s.pend = t.pend) (h4 : s.exp = t.exp) (h5 : s.txrs = t.txrs) (h6 : s.inbox = t.inbox)
    (h7 : s.rxCount = t.rxCount) (h8 : s.msgOut = t.msgOut) (h9 : s.txOut = t.txOut) : s = t := by
  cases s; cases t; simp_all

end Sys2Proof.Machine
end

