-- ==== Sys2Proof/Laws/Ops.lean ====
section
/-! SUPPORT. What each shared operation of the machine can do, said once. -/

namespace Sys2Proof.Machine

/-- Everything a data byte under running status `r` can do (R91 to R97). -/
theorem State.feedDataUnder_cases (r : Byte) (d : Data) (s : State) :
    (arity (some r) = 0 ∧ s.feedDataUnder r d = s) ∨
    (clsByte r = .cv2 ∧ ∃ m, build1 r d = some m ∧ s.feedDataUnder r d = s.emit m) ∨
    (clsByte r = .sc1 ∧
      s.feedDataUnder r d = (s.emit (.systemCommon r [d.toNat])).endCommon) ∨
    (arity (some r) = 2 ∧ s.pend = none ∧ s.feedDataUnder r d = s.hold d) ∨
    (clsByte r = .cv3 ∧ ∃ p m, s.pend = some p ∧ build2 r p d = some m ∧
      s.feedDataUnder r d = (s.emit m).release) ∨
    (clsByte r = .sc2 ∧ ∃ p, s.pend = some p ∧ s.feedDataUnder r d =
      (s.emit (.systemCommon r [p.toNat, d.toNat])).release.endCommon) := by
  have h1 := build1_isSome r d
  unfold State.feedDataUnder
  cases h : clsByte r
  case cv2 =>
    obtain ⟨m, hm⟩ := Option.isSome_iff_exists.mp (by rw [h1, h]; rfl)
    exact .inr (.inl ⟨rfl, m, hm, by rw [hm]; rfl⟩)
  case cv3 =>
    cases hp : s.pend with
    | none => exact .inr (.inr (.inr (.inl ⟨by simp [arity, cls, h, StatusClass.dataBytes],
        rfl, rfl⟩)))
    | some p =>
      obtain ⟨m, hm⟩ := Option.isSome_iff_exists.mp (by rw [build2_isSome r p d, h]; rfl)
      exact .inr (.inr (.inr (.inr (.inl ⟨rfl, p, m, rfl, hm, by simp [hm, State.emitBuilt]⟩))))
  case sc2 =>
    cases hp : s.pend with
    | none => exact .inr (.inr (.inr (.inl ⟨by simp [arity, cls, h, StatusClass.dataBytes],
        rfl, rfl⟩)))
    | some p => exact .inr (.inr (.inr (.inr (.inr ⟨rfl, p, rfl, rfl⟩))))
  case sc1 => exact .inr (.inr (.inl ⟨rfl, rfl⟩))
  all_goals exact .inl ⟨by simp [arity, cls, h, StatusClass.dataBytes], rfl⟩

/-- Everything a channel-voice operation can do (R110, R121). -/
theorem State.sendVoice_cases (st : Byte) (ds : List Byte) (s : State) :
    (s.cfg.encRunningStatus = true ∧ s.txrs = some st ∧ s.sendVoice st ds = s.out ds) ∨
    (s.cfg.encRunningStatus = true ∧ s.txrs ≠ some st ∧
      s.sendVoice st ds = { s with txrs := some st, txOut := s.txOut ++ st :: ds }) ∨
    (s.cfg.encRunningStatus = false ∧ s.sendVoice st ds = s.out (st :: ds)) := by
  unfold State.sendVoice State.statusLeftOut State.setTxrs
  cases hc : s.cfg.encRunningStatus
  · simp
  · by_cases ht : s.txrs = some st
    · simp [ht]
    · simp [ht, State.out]

/-- A step without a host move (R31). -/
theorem step_of_no_move {s : State} (h : s.inbox = []) : step s = .next s := by
  simp [step, State.take, h]

/-- A step with a host move (R38). -/
theorem step_of_move {s : State} {t : Transfer} {rest : List Transfer} (h : s.inbox = t :: rest) :
    step s = exec (decode t) { s with inbox := rest, rxCount := s.rxCount + rxBytes t } := by
  simp [step, State.take, h]

/-- A step that answers a next state begins a run of one step more. -/
theorem runSteps_succ {s t : State} (h : step s = .next t) (k : Nat) :
    runSteps (k + 1) s = runSteps k t := by
  rw [runSteps, h]

/-- A refused step ends a run. -/
theorem runSteps_refused {s : State} {r : Refusal} (h : step s = .refused r) (k : Nat) :
    runSteps (k + 1) s = .refused r := by
  rw [runSteps, h]

/-- A run of the block is the host's run of it. -/
theorem runSteps_eq_core_run (k : Nat) (s : State) :
    runSteps k s = Host.Core.run Sys2Proof.core k s := by
  induction k generalizing s with
  | zero => rfl
  | succ k ih =>
    cases h : step s with
    | next t =>
      have hs : Sys2Proof.core.step s = .next t := h
      rw [runSteps_succ h, ih]
      simp only [Host.Core.run]
      rw [hs]
    | fault f => exact nomatch f
    | refused r =>
      have hs : Sys2Proof.core.step s = .refused r := h
      rw [runSteps_refused h]
      simp only [Host.Core.run]
      rw [hs]
      rfl

/-- A run of no moves only clears the host's moves to come. -/
@[simp] theorem run_nil (s : State) : run [] s = .next (s.load []) := rfl

/-- What every instruction leaves alone: the parameters, the host's moves to come, and the count of
bytes (R19). -/
theorem exec_keeps {i : Instr} {s t : State} (h : exec i s = .next t) :
    t.cfg = s.cfg ∧ t.inbox = s.inbox ∧ t.rxCount = s.rxCount := by
  cases i <;> simp only [exec, execFeedNoteOffSt, execFeedNoteOnSt, execFeedPolyAtSt, execFeedCcSt,
    execFeedPcSt, execFeedCatSt, execFeedPbSt, execFeedSysexSt, execFeedMtcQfSt, execFeedSongPosSt,
    execFeedSongSelSt, execFeedScUndefSt, execFeedTuneReq, execFeedEoxSt, execFeedRt,
    execEncNoteOff, execEncNoteOn, execEncPolyAt, execEncCc, execEncPc, execEncCat, execEncPb,
    Host.Outcome.next.injEq] at h
  case feedData v =>
    unfold execFeedData at h
    split at h
    · cases h; simp
    · rename_i r hr
      simp only [Host.Outcome.next.injEq] at h
      subst h
      rcases State.feedDataUnder_cases r v s with ⟨-, h⟩ | ⟨-, m, -, h⟩ | ⟨-, h⟩ | ⟨-, -, h⟩ |
        ⟨-, p, m, -, -, h⟩ | ⟨-, p, -, h⟩ <;> simp [h]
  case encSysCommon code data =>
    unfold execEncSysCommon at h
    split at h
    · simp only [Host.Outcome.next.injEq] at h; subst h; simp
    · cases h
  case encRt code =>
    unfold execEncRt at h
    split at h
    · simp only [Host.Outcome.next.injEq] at h; subst h; simp
    · cases h
  case reset t =>
    cases t <;> simp only [execReset, Host.Outcome.next.injEq] at h <;> subst h <;> simp
  all_goals subst h; simp

/-- A run whose first move answers a next state goes on from it. -/
theorem run_cons_of_next {t : Transfer} {ts : List Transfer} {s u : State}
    (h : exec (decode t) { s with inbox := ts, rxCount := s.rxCount + rxBytes t } = .next u) :
    run (t :: ts) s = run ts u := by
  have hu : u.load ts = u := by
    have hi := (exec_keeps h).2.1
    cases u; simp_all [State.load]
  have hs : step (s.load (t :: ts)) = .next u := (step_of_move rfl).trans h
  rw [run, run, hu]
  exact runSteps_succ hs ts.length

/-- A run whose first move is refused is refused. -/
theorem run_cons_of_refused {t : Transfer} {ts : List Transfer} {s : State} {r : Refusal}
    (h : exec (decode t) { s with inbox := ts, rxCount := s.rxCount + rxBytes t } = .refused r) :
    run (t :: ts) s = .refused r := by
  have hs : step (s.load (t :: ts)) = .refused r := (step_of_move rfl).trans h
  exact runSteps_refused hs ts.length

/-- ENC_SYS_COMMON of a constructible Message (R118). -/
theorem exec_encSysCommon_of_constructible {code : Byte} {data : List Nat} (s : State)
    (h : constructible (.systemCommon code data) = true) :
    exec (.encSysCommon code data) s = .next ((s.setTxrs none).out (code :: data.map dataByte)) :=
  if_pos h

/-- ENC_SYS_COMMON of any other Message (R120). -/
theorem exec_encSysCommon_refused {code : Byte} {data : List Nat} (s : State)
    (h : ¬ constructible (.systemCommon code data) = true) :
    exec (.encSysCommon code data) s = .refused (.notConstructible (.systemCommon code data)) :=
  if_neg h

/-- ENC_RT of a constructible Message (R119). -/
theorem exec_encRt_of_constructible {code : Byte} (s : State)
    (h : constructible (.systemRealTime code) = true) :
    exec (.encRt code) s = .next (s.out [code]) :=
  if_pos h

/-- ENC_RT of any other Message (R120). -/
theorem exec_encRt_refused {code : Byte} (s : State)
    (h : ¬ constructible (.systemRealTime code) = true) :
    exec (.encRt code) s = .refused (.notConstructible (.systemRealTime code)) :=
  if_neg h

/-- `TXRS` after `if ENC_RS: TXRS <- v`. -/
theorem State.setTxrs_eq (v : Option Byte) (s : State) :
    s.setTxrs v = { s with txrs := if s.cfg.encRunningStatus then v else s.txrs } := by
  unfold State.setTxrs
  split <;> rfl

end Sys2Proof.Machine
end

