-- ==== Sys2Proof/Laws/PerInstr.lean ====
section
/-! SUPPORT. The family `WireLength`, a fact about every instruction as syntax: a byte of `RX` is one
byte, a well-formed Message is one to three (spec/42_encoder.md R125), a reset request none. -/

namespace Sys2Proof.Laws

/-- How many bytes an instruction may have. -/
def WireLength.bounds : Instr → Nat × Nat
  | .feedData _ => (1, 1)
  | .feedNoteOffSt _ => (1, 1)
  | .feedNoteOnSt _ => (1, 1)
  | .feedPolyAtSt _ => (1, 1)
  | .feedCcSt _ => (1, 1)
  | .feedPcSt _ => (1, 1)
  | .feedCatSt _ => (1, 1)
  | .feedPbSt _ => (1, 1)
  | .feedSysexSt => (1, 1)
  | .feedMtcQfSt => (1, 1)
  | .feedSongPosSt => (1, 1)
  | .feedSongSelSt => (1, 1)
  | .feedScUndefSt _ => (1, 1)
  | .feedTuneReq => (1, 1)
  | .feedEoxSt => (1, 1)
  | .feedRt _ => (1, 1)
  | .encNoteOff _ _ _ => (3, 3)
  | .encNoteOn _ _ _ => (3, 3)
  | .encPolyAt _ _ _ => (3, 3)
  | .encCc _ _ _ => (3, 3)
  | .encPc _ _ => (2, 2)
  | .encCat _ _ => (2, 2)
  | .encPb _ _ => (3, 3)
  | .encSysCommon _ _ => (1, 3)
  | .encRt _ => (1, 1)
  | .reset _ => (0, 0)

/-- A well-formed instruction's bytes are as many as its bounds say. -/
def WireLength.Statement (i : Instr) : Prop :=
  i.wellFormed = true → (WireLength.bounds i).1 ≤ (encodeFrame i).bytes.length ∧
    (encodeFrame i).bytes.length ≤ (WireLength.bounds i).2

theorem WireLength.feedData (v : BitVec 7) :
    WireLength.Statement (.feedData v) := by
  simp [WireLength.Statement, WireLength.bounds, encodeFrame, encode, frameOf]

theorem WireLength.feedNoteOffSt (n : BitVec 4) :
    WireLength.Statement (.feedNoteOffSt n) := by
  simp [WireLength.Statement, WireLength.bounds, encodeFrame, encode, frameOf]

theorem WireLength.feedNoteOnSt (n : BitVec 4) :
    WireLength.Statement (.feedNoteOnSt n) := by
  simp [WireLength.Statement, WireLength.bounds, encodeFrame, encode, frameOf]

theorem WireLength.feedPolyAtSt (n : BitVec 4) :
    WireLength.Statement (.feedPolyAtSt n) := by
  simp [WireLength.Statement, WireLength.bounds, encodeFrame, encode, frameOf]

theorem WireLength.feedCcSt (n : BitVec 4) :
    WireLength.Statement (.feedCcSt n) := by
  simp [WireLength.Statement, WireLength.bounds, encodeFrame, encode, frameOf]

theorem WireLength.feedPcSt (n : BitVec 4) :
    WireLength.Statement (.feedPcSt n) := by
  simp [WireLength.Statement, WireLength.bounds, encodeFrame, encode, frameOf]

theorem WireLength.feedCatSt (n : BitVec 4) :
    WireLength.Statement (.feedCatSt n) := by
  simp [WireLength.Statement, WireLength.bounds, encodeFrame, encode, frameOf]

theorem WireLength.feedPbSt (n : BitVec 4) :
    WireLength.Statement (.feedPbSt n) := by
  simp [WireLength.Statement, WireLength.bounds, encodeFrame, encode, frameOf]

theorem WireLength.feedSysexSt :
    WireLength.Statement .feedSysexSt := by
  simp [WireLength.Statement, WireLength.bounds, encodeFrame, encode, frameOf]

theorem WireLength.feedMtcQfSt :
    WireLength.Statement .feedMtcQfSt := by
  simp [WireLength.Statement, WireLength.bounds, encodeFrame, encode, frameOf]

theorem WireLength.feedSongPosSt :
    WireLength.Statement .feedSongPosSt := by
  simp [WireLength.Statement, WireLength.bounds, encodeFrame, encode, frameOf]

theorem WireLength.feedSongSelSt :
    WireLength.Statement .feedSongSelSt := by
  simp [WireLength.Statement, WireLength.bounds, encodeFrame, encode, frameOf]

theorem WireLength.feedScUndefSt (u : BitVec 1) :
    WireLength.Statement (.feedScUndefSt u) := by
  simp [WireLength.Statement, WireLength.bounds, encodeFrame, encode, frameOf]

theorem WireLength.feedTuneReq :
    WireLength.Statement .feedTuneReq := by
  simp [WireLength.Statement, WireLength.bounds, encodeFrame, encode, frameOf]

theorem WireLength.feedEoxSt :
    WireLength.Statement .feedEoxSt := by
  simp [WireLength.Statement, WireLength.bounds, encodeFrame, encode, frameOf]

theorem WireLength.feedRt (c : BitVec 3) :
    WireLength.Statement (.feedRt c) := by
  simp [WireLength.Statement, WireLength.bounds, encodeFrame, encode, frameOf]

theorem WireLength.encNoteOff (ch : Nat) (key : Nat) (velocity : Nat) :
    WireLength.Statement (.encNoteOff ch key velocity) := by
  simp [WireLength.Statement, WireLength.bounds, encodeFrame, encode, frameOf, wireForm]

theorem WireLength.encNoteOn (ch : Nat) (key : Nat) (velocity : Nat) :
    WireLength.Statement (.encNoteOn ch key velocity) := by
  simp [WireLength.Statement, WireLength.bounds, encodeFrame, encode, frameOf, wireForm]

theorem WireLength.encPolyAt (ch : Nat) (key : Nat) (value : Nat) :
    WireLength.Statement (.encPolyAt ch key value) := by
  simp [WireLength.Statement, WireLength.bounds, encodeFrame, encode, frameOf, wireForm]

theorem WireLength.encCc (ch : Nat) (controller : Nat) (value : Nat) :
    WireLength.Statement (.encCc ch controller value) := by
  simp [WireLength.Statement, WireLength.bounds, encodeFrame, encode, frameOf, wireForm]

theorem WireLength.encPc (ch : Nat) (program : Nat) :
    WireLength.Statement (.encPc ch program) := by
  simp [WireLength.Statement, WireLength.bounds, encodeFrame, encode, frameOf, wireForm]

theorem WireLength.encCat (ch : Nat) (value : Nat) :
    WireLength.Statement (.encCat ch value) := by
  simp [WireLength.Statement, WireLength.bounds, encodeFrame, encode, frameOf, wireForm]

theorem WireLength.encPb (ch : Nat) (value : Nat) :
    WireLength.Statement (.encPb ch value) := by
  simp [WireLength.Statement, WireLength.bounds, encodeFrame, encode, frameOf, wireForm]

theorem WireLength.encSysCommon (code : Byte) (data : List Nat) :
    WireLength.Statement (.encSysCommon code data) := by
  intro h
  simp only [Instr.wellFormed, Message.wellFormed, Bool.and_eq_true, Bool.or_eq_true, beq_iff_eq] at h
  simp only [WireLength.bounds, encodeFrame, encode, frameOf, wireForm, List.length_cons,
    List.length_map]
  obtain ⟨(⟨-, h⟩ | ⟨-, h⟩) | ⟨-, h⟩, -⟩ := h <;> omega

theorem WireLength.encRt (code : Byte) :
    WireLength.Statement (.encRt code) := by
  simp [WireLength.Statement, WireLength.bounds, encodeFrame, encode, frameOf, wireForm]

theorem WireLength.reset (t : ResetTarget) :
    WireLength.Statement (.reset t) := by
  simp [WireLength.Statement, WireLength.bounds, encodeFrame, encode, frameOf]

end Sys2Proof.Laws
end

