-- ==== Sys2Proof/Tests/Slice0.lean ====
section
/-! SUPPORT. The model's own tests: the checks of WellFormed, the encodings written out bit by bit, one
step of each instruction against the vectors of spec/95_test_vectors.md (named S, DB, E, W and, for
the sequence with `ENC_RS = true`, its steps), and values that meet the hypotheses of each
obligation. -/

namespace Sys2Proof.Tests

open Sys2Proof.Machine

/-! ## Helpers -/

/-- A decoder in the spec's state `(RS, PEND, EXP)`. -/
def decoderAt (rs : Option Byte) (pend : Option Data) (exp : BitVec 2) : State :=
  { State.reset with rs := rs, pend := pend, exp := exp }

/-- An encoder with the given parameter and `TXRS`. -/
def encoderAt (on : Bool) (txrs : Option Byte) : State :=
  { State.initial ⟨on⟩ with txrs := txrs }

/-- The decoder's registers after a step, and what it emitted. -/
structure Fed where
  rs : Option Byte
  pend : Option Data
  exp : BitVec 2
  messages : List Message
  deriving DecidableEq

/-- What one step on a byte leaves in the decoder, and what it emits. -/
def fed (b : Byte) (s : State) : Option Fed :=
  match step { s with inbox := [.rx b] } with
  | .next t => some ⟨t.rs, t.pend, t.exp, newMessages s t⟩
  | _ => none

/-- What one step on a Message puts out, and `TXRS` after it. -/
def sent (m : Message) (s : State) : Option (List Byte × Option Byte) :=
  match step { s with inbox := [.txmsg m] } with
  | .next t => some (newBytes s t, t.txrs)
  | _ => none

/-- Why one step on a Message is refused. -/
def refusal (m : Message) (s : State) : Option Refusal :=
  match step { s with inbox := [.txmsg m] } with
  | .refused r => some r
  | _ => none

/-- All registers after a step. -/
structure Registers where
  rs : Option Byte
  pend : Option Data
  exp : BitVec 2
  txrs : Option Byte
  deriving DecidableEq

/-- The registers after one step on a reset request. -/
def afterReset (t : ResetTarget) (s : State) : Option Registers :=
  match step { s with inbox := [.reset t] } with
  | .next u => some ⟨u.rs, u.pend, u.exp, u.txrs⟩
  | _ => none

/-- The instruction that bytes on a port decode to. -/
def decoded (p : Port) (bs : List Byte) : Option Instr :=
  match decodeFrame ⟨p, bs⟩ with
  | .ok i => some i
  | .error _ => none

/-- Why bytes on a port decode to nothing. -/
def rejected (p : Port) (bs : List Byte) : Option DecodeError :=
  match decodeFrame ⟨p, bs⟩ with
  | .ok _ => none
  | .error e => some e

/-! ## WellFormed refuses (R11) -/

theorem test_illformed_channel :
    (Instr.encNoteOff 16 0 0).wellFormed = false ∧ (Instr.encNoteOn 16 0 0).wellFormed = false ∧
    (Instr.encPolyAt 16 0 0).wellFormed = false ∧ (Instr.encCc 16 0 0).wellFormed = false ∧
    (Instr.encPc 16 0).wellFormed = false ∧ (Instr.encCat 16 0).wellFormed = false ∧
    (Instr.encPb 16 0).wellFormed = false := by decide

theorem test_illformed_first_data :
    (Instr.encNoteOff 0 128 0).wellFormed = false ∧ (Instr.encNoteOn 0 128 0).wellFormed = false ∧
    (Instr.encPolyAt 0 128 0).wellFormed = false ∧ (Instr.encCc 0 128 0).wellFormed = false ∧
    (Instr.encPc 0 128).wellFormed = false ∧ (Instr.encCat 0 128).wellFormed = false := by decide

theorem test_illformed_second_data :
    (Instr.encNoteOff 0 0 128).wellFormed = false ∧ (Instr.encNoteOn 0 0 128).wellFormed = false ∧
    (Instr.encPolyAt 0 0 128).wellFormed = false ∧
    (Instr.encCc 0 0 128).wellFormed = false := by decide

theorem test_illformed_pitch : (Instr.encPb 0 16384).wellFormed = false := by decide

theorem test_illformed_realtime_code : (Instr.encRt 0xF7#8).wellFormed = false := by decide

theorem test_illformed_common_code :
    (Instr.encSysCommon 0xF0#8 []).wellFormed = false ∧
    (Instr.encSysCommon 0xF4#8 []).wellFormed = false ∧
    (Instr.encSysCommon 0xF5#8 [0]).wellFormed = false ∧
    (Instr.encSysCommon 0xF7#8 []).wellFormed = false := by decide

theorem test_illformed_common_count :
    (Instr.encSysCommon 0xF1#8 []).wellFormed = false ∧
    (Instr.encSysCommon 0xF2#8 [0]).wellFormed = false ∧
    (Instr.encSysCommon 0xF3#8 [0, 0]).wellFormed = false ∧
    (Instr.encSysCommon 0xF6#8 [0]).wellFormed = false := by decide

theorem test_illformed_common_data :
    (Instr.encSysCommon 0xF1#8 [128]).wellFormed = false ∧
    (Instr.encSysCommon 0xF2#8 [0, 128]).wellFormed = false := by decide

theorem test_wellformed_limits :
    (Instr.encNoteOn 15 127 127).wellFormed = true ∧ (Instr.encPb 15 16383).wellFormed = true ∧
    (Instr.encSysCommon 0xF2#8 [127, 127]).wellFormed = true ∧
    (Instr.encRt 0xFF#8).wellFormed = true := by decide

/-! ## Decoding, the words written out from the encodings of R51 to R55 and R59 -/

theorem test_decode_data :
    decodeRx 0b01010110#8 = .feedData 0b1010110#7 ∧
    decodeRx 0b01111111#8 = .feedData 0b1111111#7 := by decide
theorem test_decode_note_off : decodeRx 0b10000011#8 = .feedNoteOffSt 0b0011#4 := by decide
theorem test_decode_note_on : decodeRx 0b10011001#8 = .feedNoteOnSt 0b1001#4 := by decide
theorem test_decode_poly_at : decodeRx 0b10100111#8 = .feedPolyAtSt 0b0111#4 := by decide
theorem test_decode_cc : decodeRx 0b10110010#8 = .feedCcSt 0b0010#4 := by decide
theorem test_decode_pc : decodeRx 0b11000101#8 = .feedPcSt 0b0101#4 := by decide
theorem test_decode_cat : decodeRx 0b11011111#8 = .feedCatSt 0b1111#4 := by decide
theorem test_decode_pb : decodeRx 0b11101100#8 = .feedPbSt 0b1100#4 := by decide
theorem test_decode_sysex : decodeRx 0b11110000#8 = .feedSysexSt := by decide
theorem test_decode_mtc_qf : decodeRx 0b11110001#8 = .feedMtcQfSt := by decide
theorem test_decode_song_pos : decodeRx 0b11110010#8 = .feedSongPosSt := by decide
theorem test_decode_song_sel : decodeRx 0b11110011#8 = .feedSongSelSt := by decide
theorem test_decode_sc_undef :
    decodeRx 0b11110100#8 = .feedScUndefSt 0#1 ∧ decodeRx 0b11110101#8 = .feedScUndefSt 1#1 := by
  decide
theorem test_decode_tune_req : decodeRx 0b11110110#8 = .feedTuneReq := by decide
theorem test_decode_eox : decodeRx 0b11110111#8 = .feedEoxSt := by decide
theorem test_decode_rt :
    decodeRx 0b11111000#8 = .feedRt 0b000#3 ∧ decodeRx 0b11111101#8 = .feedRt 0b101#3 := by decide

theorem test_decode_enc_note_off :
    decoded .txmsg [0b10000011#8, 0b00111100#8, 0b01000000#8] = some (.encNoteOff 3 60 64) := by
  decide
theorem test_decode_enc_note_on :
    decoded .txmsg [0b10011111#8, 0b01111111#8, 0b00000001#8] = some (.encNoteOn 15 127 1) := by
  decide
theorem test_decode_enc_poly_at :
    decoded .txmsg [0b10100010#8, 0b00111100#8, 0b00010000#8] = some (.encPolyAt 2 60 16) := by
  decide
theorem test_decode_enc_cc :
    decoded .txmsg [0b10110001#8, 0b00000111#8, 0b01100100#8] = some (.encCc 1 7 100) := by decide
theorem test_decode_enc_pc :
    decoded .txmsg [0b11000011#8, 0b00000101#8] = some (.encPc 3 5) := by decide
theorem test_decode_enc_cat :
    decoded .txmsg [0b11011001#8, 0b01111111#8] = some (.encCat 9 127) := by decide
/-- E10: 0x34 is the low part of 0x1234, 0x24 the high part. -/
theorem test_decode_enc_pb :
    decoded .txmsg [0b11100100#8, 0b00110100#8, 0b00100100#8] = some (.encPb 4 0x1234) := by decide
theorem test_decode_enc_sys_common :
    decoded .txmsg [0b11110001#8, 0b00100011#8] = some (.encSysCommon 0xF1#8 [0x23]) ∧
    decoded .txmsg [0b11110010#8, 0b00010000#8, 0b00100000#8]
      = some (.encSysCommon 0xF2#8 [0x10, 0x20]) ∧
    decoded .txmsg [0b11110011#8, 0b00000101#8] = some (.encSysCommon 0xF3#8 [5]) ∧
    decoded .txmsg [0b11110110#8] = some (.encSysCommon 0xF6#8 []) := by decide
theorem test_decode_enc_rt :
    decoded .txmsg [0b11111000#8] = some (.encRt 0xF8#8) ∧
    decoded .txmsg [0b11111111#8] = some (.encRt 0xFF#8) := by decide
theorem test_decode_reset : decoded (.reset .encoder) [] = some (.reset .encoder) := by decide

/-! Bytes that are no host move are rejected by name. -/

theorem test_reject_rx :
    rejected .rx [] = some .rxNotOneByte ∧ rejected .rx [0x90#8, 0x40#8] = some .rxNotOneByte := by
  decide
theorem test_reject_tx_form :
    rejected .txmsg [] = some .txEmpty ∧ rejected .txmsg [0x40#8] = some .txNoStatusByte ∧
    rejected .txmsg [0x90#8, 0x40#8, 0x80#8] = some .txDataBitSeven := by decide
theorem test_reject_tx_count :
    rejected .txmsg [0x90#8, 0x40#8] = some .txDataCount ∧
    rejected .txmsg [0xC0#8, 0x40#8, 0x40#8] = some .txDataCount ∧
    rejected .txmsg [0xF6#8, 0x00#8] = some .txDataCount ∧
    rejected .txmsg [0xF8#8, 0x00#8] = some .txDataCount := by decide
theorem test_reject_tx_no_message :
    rejected .txmsg [0xF0#8] = some .txNoSuchMessage ∧
    rejected .txmsg [0xF4#8] = some .txNoSuchMessage ∧
    rejected .txmsg [0xF5#8] = some .txNoSuchMessage ∧
    rejected .txmsg [0xF7#8] = some .txNoSuchMessage := by decide
theorem test_reject_reset : rejected (.reset .block) [0xFF#8] = some .resetCarriesBytes := by decide

/-- A table word: a byte is a byte on `RX`, a longer word a wire form, no bits a reset. -/
theorem test_table_word :
    decodeTableWord 8 0x93 = some (.feedNoteOnSt 3#4) ∧
    decodeTableWord 24 0x7F4093 = some (.encNoteOn 3 0x40 0x7F) ∧
    decodeTableWord 24 0xC0 = some (.encPc 0 0) ∧
    decodeTableWord 0 0 = some (.reset .block) ∧
    decodeTableWord 24 0xF0 = none := by decide

/-- The step after `withFetchWord` runs the word's instruction. -/
theorem test_fetch_word :
    (match step (State.reset.withFetchWord 8 0x93) with
      | .next t => some (t.rs, t.inbox)
      | _ => none) = some (some 0x93#8, []) ∧
    (match step (State.reset.withFetchWord 24 0x7F4093) with
      | .next t => some (t.txOut, t.inbox)
      | _ => none) = some ([0x93#8, 0x40#8, 0x7F#8], []) := by decide

/-! ## One step of each instruction -/

/-- S1, S2. -/
theorem test_feed_note_off_st :
    fed 0x80#8 (decoderAt none none 0#2) = some ⟨some 0x80#8, none, 2#2, []⟩ ∧
    fed 0x8F#8 (decoderAt (some 0x90#8) (some 0x40#7) 2#2) = some ⟨some 0x8F#8, none, 2#2, []⟩ := by
  decide
/-- S3. -/
theorem test_feed_note_on_st :
    fed 0x90#8 (decoderAt (some 0x90#8) (some 0x40#7) 2#2) = some ⟨some 0x90#8, none, 2#2, []⟩ := by
  decide
/-- S4. -/
theorem test_feed_poly_at_st :
    fed 0xA7#8 (decoderAt none none 0#2) = some ⟨some 0xA7#8, none, 2#2, []⟩ := by decide
/-- S5. -/
theorem test_feed_cc_st :
    fed 0xB2#8 (decoderAt (some 0xC2#8) none 1#2) = some ⟨some 0xB2#8, none, 2#2, []⟩ := by decide
/-- S6. -/
theorem test_feed_pc_st :
    fed 0xC0#8 (decoderAt none none 0#2) = some ⟨some 0xC0#8, none, 1#2, []⟩ := by decide
/-- S7. -/
theorem test_feed_cat_st :
    fed 0xDF#8 (decoderAt (some 0xB0#8) none 2#2) = some ⟨some 0xDF#8, none, 1#2, []⟩ := by decide
/-- S8. -/
theorem test_feed_pb_st :
    fed 0xE0#8 (decoderAt (some 0xF2#8) (some 0x10#7) 2#2) = some ⟨some 0xE0#8, none, 2#2, []⟩ := by
  decide
/-- S9. -/
theorem test_feed_sysex_st :
    fed 0xF0#8 (decoderAt (some 0xE5#8) (some 0x12#7) 2#2) = some ⟨some 0xF0#8, none, 0#2, []⟩ := by
  decide
/-- S10. -/
theorem test_feed_mtc_qf_st :
    fed 0xF1#8 (decoderAt (some 0x90#8) none 2#2) = some ⟨some 0xF1#8, none, 1#2, []⟩ := by decide
/-- S11. -/
theorem test_feed_song_pos_st :
    fed 0xF2#8 (decoderAt (some 0xC0#8) none 1#2) = some ⟨some 0xF2#8, none, 2#2, []⟩ := by decide
/-- S12. -/
theorem test_feed_song_sel_st :
    fed 0xF3#8 (decoderAt none none 0#2) = some ⟨some 0xF3#8, none, 1#2, []⟩ := by decide
/-- S13, S14. -/
theorem test_feed_sc_undef_st :
    fed 0xF4#8 (decoderAt (some 0x90#8) none 2#2) = some ⟨some 0xF4#8, none, 0#2, []⟩ ∧
    fed 0xF5#8 (decoderAt (some 0xF2#8) (some 0x01#7) 2#2) = some ⟨some 0xF5#8, none, 0#2, []⟩ := by
  decide
/-- S15. -/
theorem test_feed_tune_req :
    fed 0xF6#8 (decoderAt (some 0x90#8) (some 0x40#7) 2#2)
      = some ⟨none, none, 0#2, [.systemCommon 0xF6#8 []]⟩ := by decide
/-- S17. -/
theorem test_feed_eox_st :
    fed 0xF7#8 (decoderAt (some 0xF0#8) none 0#2) = some ⟨some 0xF7#8, none, 0#2, []⟩ := by decide
/-- S18, S25. -/
theorem test_feed_rt :
    fed 0xF8#8 (decoderAt (some 0x90#8) (some 0x40#7) 2#2)
      = some ⟨some 0x90#8, some 0x40#7, 2#2, [.systemRealTime 0xF8#8]⟩ ∧
    fed 0xFF#8 (decoderAt (some 0x90#8) (some 0x40#7) 2#2)
      = some ⟨some 0x90#8, some 0x40#7, 2#2, [.systemRealTime 0xFF#8]⟩ := by decide
/-- DB1, DB2, DB5, DB7, DB8, DB10. -/
theorem test_feed_data_first :
    fed 0x00#8 (decoderAt none none 0#2) = some ⟨none, none, 0#2, []⟩ ∧
    fed 0x7F#8 (decoderAt (some 0xF0#8) none 0#2) = some ⟨some 0xF0#8, none, 0#2, []⟩ ∧
    fed 0x7F#8 (decoderAt (some 0xC5#8) none 1#2)
      = some ⟨some 0xC5#8, none, 1#2, [.programChange 5 0x7F]⟩ ∧
    fed 0x23#8 (decoderAt (some 0xF1#8) none 1#2)
      = some ⟨none, none, 0#2, [.systemCommon 0xF1#8 [0x23]]⟩ ∧
    fed 0x7F#8 (decoderAt (some 0xF3#8) none 1#2)
      = some ⟨none, none, 0#2, [.systemCommon 0xF3#8 [0x7F]]⟩ ∧
    fed 0x3C#8 (decoderAt (some 0x80#8) none 2#2)
      = some ⟨some 0x80#8, some 0x3C#7, 2#2, []⟩ := by decide
/-- DB11, DB12, DB13, DB14, DB18, DB19, DB21. -/
theorem test_feed_data_second :
    fed 0x40#8 (decoderAt (some 0x80#8) (some 0x3C#7) 2#2)
      = some ⟨some 0x80#8, none, 2#2, [.noteOff 0 0x3C 0x40]⟩ ∧
    fed 0x00#8 (decoderAt (some 0x9F#8) (some 0x7F#7) 2#2)
      = some ⟨some 0x9F#8, none, 2#2, [.noteOn 15 0x7F 0]⟩ ∧
    fed 0x10#8 (decoderAt (some 0xA3#8) (some 0x3C#7) 2#2)
      = some ⟨some 0xA3#8, none, 2#2, [.polyAftertouch 3 0x3C 0x10]⟩ ∧
    fed 0x64#8 (decoderAt (some 0xB0#8) (some 0x07#7) 2#2)
      = some ⟨some 0xB0#8, none, 2#2, [.controlChange 0 0x07 0x64]⟩ ∧
    fed 0x00#8 (decoderAt (some 0xEF#8) (some 0x01#7) 2#2)
      = some ⟨some 0xEF#8, none, 2#2, [.pitchBend 15 1]⟩ ∧
    fed 0x01#8 (decoderAt (some 0xE0#8) (some 0x00#7) 2#2)
      = some ⟨some 0xE0#8, none, 2#2, [.pitchBend 0 0x80]⟩ ∧
    fed 0x20#8 (decoderAt (some 0xF2#8) (some 0x10#7) 2#2)
      = some ⟨none, none, 0#2, [.systemCommon 0xF2#8 [0x10, 0x20]]⟩ := by decide

/-- E1. -/
theorem test_enc_note_off :
    sent (.noteOff 0 0x40 0) (encoderAt false none) = some ([0x80#8, 0x40#8, 0x00#8], none) := by
  decide
/-- E2, E16, E17. -/
theorem test_enc_note_on :
    sent (.noteOn 15 0x7F 0x7F) (encoderAt false none) = some ([0x9F#8, 0x7F#8, 0x7F#8], none) ∧
    sent (.noteOn 0 0xC0 0x80) (encoderAt false none) = some ([0x90#8, 0x40#8, 0x00#8], none) ∧
    sent (.noteOn 17 0x40 0x7F) (encoderAt false none) = some ([0x91#8, 0x40#8, 0x7F#8], none) := by
  decide
/-- Steps 1 and 2 of the sequence with `ENC_RS = true`. -/
theorem test_enc_note_on_running :
    sent (.noteOn 0 0x3C 0x64) (encoderAt true none)
      = some ([0x90#8, 0x3C#8, 0x64#8], some 0x90#8) ∧
    sent (.noteOn 0 0x3E 0x64) (encoderAt true (some 0x90#8))
      = some ([0x3E#8, 0x64#8], some 0x90#8) := by decide
/-- E3. -/
theorem test_enc_poly_at :
    sent (.polyAftertouch 2 0x3C 0x10) (encoderAt false none)
      = some ([0xA2#8, 0x3C#8, 0x10#8], none) := by decide
/-- E4, and step 5 of the sequence. -/
theorem test_enc_cc :
    sent (.controlChange 1 0x07 0x64) (encoderAt false none)
      = some ([0xB1#8, 0x07#8, 0x64#8], none) ∧
    sent (.controlChange 0 0x07 0x64) (encoderAt true (some 0x90#8))
      = some ([0xB0#8, 0x07#8, 0x64#8], some 0xB0#8) := by decide
/-- E5. -/
theorem test_enc_pc :
    sent (.programChange 3 5) (encoderAt false none) = some ([0xC3#8, 0x05#8], none) := by decide
/-- E6. -/
theorem test_enc_cat :
    sent (.channelAftertouch 9 0x7F) (encoderAt false none) = some ([0xD9#8, 0x7F#8], none) := by
  decide
/-- E10, E18. -/
theorem test_enc_pb :
    sent (.pitchBend 4 0x1234) (encoderAt false none) = some ([0xE4#8, 0x34#8, 0x24#8], none) ∧
    sent (.pitchBend 0 0x4000) (encoderAt false none) = some ([0xE0#8, 0x00#8, 0x00#8], none) := by
  decide
/-- E12, and step 6 of the sequence. -/
theorem test_enc_sys_common :
    sent (.systemCommon 0xF2#8 [0x10, 0x20]) (encoderAt false none)
      = some ([0xF2#8, 0x10#8, 0x20#8], none) ∧
    sent (.systemCommon 0xF6#8 []) (encoderAt true (some 0xB0#8)) = some ([0xF6#8], none) := by
  decide
/-- E20, E21. -/
theorem test_enc_sys_common_refused :
    refusal (.systemCommon 0xF4#8 []) State.reset
      = some (.notConstructible (.systemCommon 0xF4#8 [])) ∧
    refusal (.systemCommon 0xF2#8 [0x10]) State.reset
      = some (.notConstructible (.systemCommon 0xF2#8 [0x10])) := by decide
/-- E15, and step 3 of the sequence. -/
theorem test_enc_rt :
    sent (.systemRealTime 0xFF#8) (encoderAt false none) = some ([0xFF#8], none) ∧
    sent (.systemRealTime 0xF8#8) (encoderAt true (some 0x90#8))
      = some ([0xF8#8], some 0x90#8) := by decide
/-- E19. -/
theorem test_enc_rt_refused :
    refusal (.systemRealTime 0xF7#8) State.reset
      = some (.notConstructible (.systemRealTime 0xF7#8)) := by decide
/-- R150, R151, and step 8 of the sequence. -/
theorem test_reset_targets :
    afterReset .decoder { decoderAt (some 0x90#8) (some 0x40#7) 2#2 with
      cfg := ⟨true⟩, txrs := some 0xB0#8 } = some ⟨none, none, 0#2, some 0xB0#8⟩ ∧
    afterReset .encoder { decoderAt (some 0x90#8) (some 0x40#7) 2#2 with
      cfg := ⟨true⟩, txrs := some 0xB0#8 } = some ⟨some 0x90#8, some 0x40#7, 2#2, none⟩ ∧
    afterReset .block { decoderAt (some 0x90#8) (some 0x40#7) 2#2 with
      cfg := ⟨true⟩, txrs := some 0xB0#8 } = some ⟨none, none, 0#2, none⟩ := by decide

/-! ## The hypotheses of the obligations can be met -/

theorem witness_FrameRoundTrip :
    (Instr.encNoteOn 15 127 127).wellFormed = true ∧ (Instr.encPb 0 16383).wellFormed = true ∧
    (Instr.encSysCommon 0xF2#8 [0, 127]).wellFormed = true ∧ (Instr.feedRt 7#3).wellFormed = true ∧
    (Instr.reset .block).wellFormed = true := by decide

theorem witness_DecodedFrameIsTheEncoding :
    decodeFrame ⟨.rx, [0xF8#8]⟩ = .ok (.feedRt 0#3) ∧
    decodeFrame ⟨.txmsg, [0xE0#8, 0x7F#8, 0x7F#8]⟩ = .ok (.encPb 0 16383) ∧
    decodeFrame ⟨.reset .decoder, []⟩ = .ok (.reset .decoder) := ⟨rfl, rfl, rfl⟩

/-- The lowest and the highest byte of each row; the byte below a row's lowest is in another row. -/
theorem witness_RxRowsDecode :
    0x00#8 &&& 0x80#8 = 0x00#8 ∧ 0x7F#8 &&& 0x80#8 = 0x00#8 ∧
    0x80#8 &&& 0xF0#8 = 0x80#8 ∧ 0x8F#8 &&& 0xF0#8 = 0x80#8 ∧
    0x90#8 &&& 0xF0#8 = 0x90#8 ∧ 0x9F#8 &&& 0xF0#8 = 0x90#8 ∧
    0xA0#8 &&& 0xF0#8 = 0xA0#8 ∧ 0xAF#8 &&& 0xF0#8 = 0xA0#8 ∧
    0xB0#8 &&& 0xF0#8 = 0xB0#8 ∧ 0xBF#8 &&& 0xF0#8 = 0xB0#8 ∧
    0xC0#8 &&& 0xF0#8 = 0xC0#8 ∧ 0xCF#8 &&& 0xF0#8 = 0xC0#8 ∧
    0xD0#8 &&& 0xF0#8 = 0xD0#8 ∧ 0xDF#8 &&& 0xF0#8 = 0xD0#8 ∧
    0xE0#8 &&& 0xF0#8 = 0xE0#8 ∧ 0xEF#8 &&& 0xF0#8 = 0xE0#8 ∧
    0xF4#8 &&& 0xFE#8 = 0xF4#8 ∧ 0xF5#8 &&& 0xFE#8 = 0xF4#8 ∧
    0xF8#8 &&& 0xF8#8 = 0xF8#8 ∧ 0xFF#8 &&& 0xF8#8 = 0xF8#8 := by decide

/-- Both ends of each range of the class map. -/
theorem witness_StatusClassMap :
    (0x80#8 ≤ 0x80#8 ∧ 0x80#8 ≤ 0xBF#8) ∧ (0x80#8 ≤ 0xBF#8 ∧ 0xBF#8 ≤ 0xBF#8) ∧
    (0xE0#8 ≤ 0xE0#8 ∧ 0xE0#8 ≤ 0xEF#8) ∧ (0xE0#8 ≤ 0xEF#8 ∧ 0xEF#8 ≤ 0xEF#8) ∧
    (0xC0#8 ≤ 0xC0#8 ∧ 0xC0#8 ≤ 0xDF#8) ∧ (0xC0#8 ≤ 0xDF#8 ∧ 0xDF#8 ≤ 0xDF#8) ∧
    0xF8#8 ≤ 0xF8#8 ∧ 0xF8#8 ≤ 0xFF#8 := by decide

/-- Neighbouring ranges of the class map give different classes, each at its own end. -/
theorem test_class_boundaries :
    [0x80#8, 0xBF#8, 0xC0#8, 0xDF#8, 0xE0#8, 0xEF#8, 0xF0#8, 0xF1#8, 0xF2#8, 0xF3#8, 0xF4#8, 0xF5#8,
      0xF6#8, 0xF7#8, 0xF8#8, 0xFF#8].map clsByte =
    [.cv3, .cv3, .cv2, .cv2, .cv3, .cv3, .uncl, .sc1, .sc2, .sc1, .uncl, .uncl, .sc0, .uncl, .rt,
      .rt] := by decide

/-- A state with moves of each kind still to come. -/
def waiting (t : Transfer) : State := { State.reset with inbox := [t, .rx 0x40#8] }

theorem witness_StepRunsTheNextMove :
    (waiting (.rx 0x90#8)).inbox = .rx 0x90#8 :: [.rx 0x40#8] ∧
    (waiting (.txmsg (.noteOn 0 1 2))).inbox = .txmsg (.noteOn 0 1 2) :: [.rx 0x40#8] ∧
    (waiting (.reset .block)).inbox = .reset .block :: [.rx 0x40#8] := by decide

theorem witness_StateHeldBetweenMoves : (decoderAt (some 0x90#8) (some 0x40#7) 2#2).inbox = [] := by
  decide

theorem witness_EveryByteIsTaken : (waiting (.rx 0xFF#8)).inbox = .rx 0xFF#8 :: [.rx 0x40#8] := by
  decide

theorem witness_DutifulMovesRunToTheEnd :
    HostDuty [.rx 0xF4#8, .txmsg (.noteOn 17 200 0), .txmsg (.systemCommon 0xF6#8 []),
      .txmsg (.systemRealTime 0xF8#8), .reset .block] := by decide

theorem witness_ChannelVoiceStatusAction :
    (0x80#8 ≤ 0x80#8 ∧ 0x80#8 ≤ 0xEF#8) ∧ (0x80#8 ≤ 0xEF#8 ∧ 0xEF#8 ≤ 0xEF#8) := by decide

/-- Both ends, and a run of bytes without a channel-voice status in which a Message is emitted. -/
theorem witness_SystemStatusAction :
    (0xF0#8 ≤ 0xF0#8 ∧ 0xF0#8 ≤ 0xF7#8 ∧ 0xF0#8 ≠ 0xF6#8) ∧
    (0xF0#8 ≤ 0xF7#8 ∧ 0xF7#8 ≤ 0xF7#8 ∧ 0xF7#8 ≠ 0xF6#8) ∧
    (∀ x ∈ [0x40#8, 0xF8#8], ¬ voiceByte x) ∧
    ∃ t, feedAll [0x40#8, 0xF8#8] (decoderAt (some 0xF1#8) none 1#2) = .next t ∧
      newMessages (decoderAt (some 0xF1#8) none 1#2) t
        = [.systemCommon 0xF1#8 [0x40], .systemRealTime 0xF8#8] :=
  ⟨by decide, by decide, by decide, _, rfl, by decide⟩

theorem witness_RealTimeByteEmitted : 0xF8#8 ≤ 0xF8#8 ∧ 0xF8#8 ≤ 0xFF#8 := by decide

theorem witness_StatusBytesThatEmit :
    0x80#8 ≤ 0xF6#8 ∧ (0x80#8 ≤ 0xF8#8 ∧ 0xF8#8 ≤ 0xF8#8) ∧ (0x80#8 ≤ 0xFF#8 ∧ 0xF8#8 ≤ 0xFF#8) ∧
    (0x80#8 ≤ 0x80#8 ∧ 0x80#8 ≠ 0xF6#8 ∧ 0x80#8 < 0xF8#8) ∧
    (0x80#8 ≤ 0xF7#8 ∧ 0xF7#8 ≠ 0xF6#8 ∧ 0xF7#8 < 0xF8#8) := by decide

theorem witness_DataByteDropped :
    State.reset.rs = none ∧ (decoderAt (some 0xF0#8) none 0#2).rs = some 0xF0#8 ∧
    (decoderAt (some 0xF4#8) none 0#2).rs = some 0xF4#8 ∧
    (decoderAt (some 0xF5#8) none 0#2).rs = some 0xF5#8 ∧
    (decoderAt (some 0xF7#8) none 0#2).rs = some 0xF7#8 := by decide

theorem witness_OneDataByteChannelMessage :
    (decoderAt (some 0xCF#8) none 1#2).rs = some (0xC0#8 ||| (15#4).setWidth 8) ∧
    (decoderAt (some 0xD0#8) none 1#2).rs = some (0xD0#8 ||| (0#4).setWidth 8) := by decide

theorem witness_SystemCommonOneByteCompletes :
    (decoderAt (some 0xF1#8) none 1#2).rs = some 0xF1#8 ∧
    (decoderAt (some 0xF3#8) none 1#2).rs = some 0xF3#8 := by decide

theorem witness_FirstDataByteHeld :
    ((decoderAt (some 0xEF#8) none 2#2).rs = some 0xEF#8 ∧ clsByte 0xEF#8 = .cv3 ∧
      (decoderAt (some 0xEF#8) none 2#2).pend = none) ∧
    ((decoderAt (some 0xF2#8) none 2#2).rs = some 0xF2#8 ∧ clsByte 0xF2#8 = .sc2 ∧
      (decoderAt (some 0xF2#8) none 2#2).pend = none) := by decide

/-- A decoder with a first data byte held under status `r`. -/
def holding (r : Byte) : State := decoderAt (some r) (some 0x7F#7) 2#2

theorem witness_TwoDataByteChannelMessage :
    (∀ r, (holding r).pend = some 0x7F#7) ∧
    (holding 0x80#8).rs = some (0x80#8 ||| (0#4).setWidth 8) ∧
    (holding 0x9F#8).rs = some (0x90#8 ||| (15#4).setWidth 8) ∧
    (holding 0xA3#8).rs = some (0xA0#8 ||| (3#4).setWidth 8) ∧
    (holding 0xB0#8).rs = some (0xB0#8 ||| (0#4).setWidth 8) ∧
    (holding 0xEF#8).rs = some (0xE0#8 ||| (15#4).setWidth 8) :=
  ⟨fun _ => rfl, by decide, by decide, by decide, by decide, by decide⟩

theorem witness_SongPositionCompletes :
    (holding 0xF2#8).rs = some 0xF2#8 ∧ (holding 0xF2#8).pend = some 0x7F#7 := by decide

theorem witness_VelocityZeroStaysNoteOn :
    (holding 0x9F#8).rs = some (0x90#8 ||| (15#4).setWidth 8) ∧
    (holding 0x9F#8).pend = some 0x7F#7 := by decide

theorem witness_RunningStatusPersists :
    ((decoderAt (some 0x90#8) none 2#2).rs = some 0x90#8 ∧
      (decoderAt (some 0x90#8) none 2#2).pend = none ∧ clsByte 0x90#8 = .cv3) ∧
    ((decoderAt (some 0xDF#8) none 1#2).rs = some 0xDF#8 ∧
      (decoderAt (some 0xDF#8) none 1#2).pend = none ∧ clsByte 0xDF#8 = .cv2) := by decide

theorem witness_RunningStatusForm :
    (voiceByte 0x80#8 ∧ DecoderInv (decoderAt (some 0x80#8) none 2#2) ∧
      (decoderAt (some 0x80#8) none 2#2).rs = some 0x80#8 ∧
      (decoderAt (some 0x80#8) none 2#2).pend = none) ∧
    (voiceByte 0xEF#8 ∧ DecoderInv (decoderAt (some 0xEF#8) none 2#2) ∧
      (decoderAt (some 0xEF#8) none 2#2).rs = some 0xEF#8 ∧
      (decoderAt (some 0xEF#8) none 2#2).pend = none) := by decide

theorem witness_DataDroppedUntilStatusByte :
    State.reset.phase = .idle ∧ (decoderAt (some 0xF0#8) none 0#2).phase = .drop ∧
    ∀ b ∈ [0x00#8, 0x7F#8, 0xF8#8, 0xFF#8], b < 0x80#8 ∨ 0xF8#8 ≤ b := by decide

theorem witness_StatusByteResynchronises :
    (0x80#8 ≤ 0x80#8 ∧ 0x80#8 ≤ 0xF7#8) ∧ (0x80#8 ≤ 0xF6#8 ∧ 0xF6#8 ≤ 0xF7#8) ∧
    (0x80#8 ≤ 0xF7#8 ∧ 0xF7#8 ≤ 0xF7#8) := by decide

/-- A waiting decoder that instruction `i` takes to another phase. -/
def EndsWait (i : Instr) (s : State) : Prop :=
  DecoderInv s ∧ s.phase ≠ .idle ∧ s.phase ≠ .drop ∧ ∃ t, exec i s = .next t ∧ t.phase ≠ s.phase

/-- Each way a wait ends: a status byte, a reset of the decoder and of the block, the first of two
data bytes, and the completing one from each of the phases that have it. -/
theorem witness_WhatEndsAWait :
    EndsWait (decodeRx 0xF0#8) (holding 0x90#8) ∧ EndsWait (.reset .decoder) (holding 0x90#8) ∧
    EndsWait (.reset .block) (holding 0x90#8) ∧
    EndsWait (.feedData 0#7) (decoderAt (some 0x90#8) none 2#2) ∧
    EndsWait (.feedData 0#7) (decoderAt (some 0xF1#8) none 1#2) ∧
    EndsWait (.feedData 0#7) (holding 0xF2#8) :=
  ⟨⟨by decide, by decide, by decide, _, rfl, by decide⟩,
   ⟨by decide, by decide, by decide, _, rfl, by decide⟩,
   ⟨by decide, by decide, by decide, _, rfl, by decide⟩,
   ⟨by decide, by decide, by decide, _, rfl, by decide⟩,
   ⟨by decide, by decide, by decide, _, rfl, by decide⟩,
   ⟨by decide, by decide, by decide, _, rfl, by decide⟩⟩

/-- A block in the middle of its work: a first data byte held, a status byte standing on `TX`, one
Message emitted, and move `t` next. -/
def busy (t : Transfer) : State where
  cfg := ⟨true⟩
  rs := some 0x90#8
  pend := some 0x40#7
  exp := 2#2
  txrs := some 0xB0#8
  inbox := [t]
  rxCount := 3
  msgOut := [(2, .systemRealTime 0xF8#8)]
  txOut := [0xB0#8, 0x07#8, 0x64#8]

theorem witness_StepKeepsDecoderInvariant :
    DecoderInv (busy (.rx 0x7F#8)) ∧ ∃ t, step (busy (.rx 0x7F#8)) = .next t :=
  ⟨by decide, _, rfl⟩

theorem witness_StepKeepsEncoderInvariant :
    EncoderInv (busy (.txmsg (.programChange 1 2))) ∧
    ∃ t, step (busy (.txmsg (.programChange 1 2))) = .next t :=
  ⟨by decide, _, rfl⟩

theorem witness_StepKeepsRecordInvariant :
    RecordInv (busy (.rx 0x7F#8)) ∧ ∃ t, step (busy (.rx 0x7F#8)) = .next t :=
  ⟨by decide, _, rfl⟩

theorem witness_HardwareBitsTellNone :
    (DecoderInv (busy (.rx 0#8)) ∧ EncoderInv (busy (.rx 0#8)) ∧
      (busy (.rx 0#8)).rs = some 0x90#8) ∧
    (DecoderInv State.reset ∧ EncoderInv State.reset ∧ State.reset.rs = none) := by decide

theorem witness_ResetValues :
    (encoderAt true (some 0x90#8)).cfg.encRunningStatus = true ∧
    (encoderAt true (some 0x90#8)).txrs ≠ none := by decide

/-- Both parameters, and `TXRS` other than and equal to the status byte. -/
theorem witness_ChannelVoiceOperations :
    (encoderAt false none).cfg.encRunningStatus = false ∧
    ((encoderAt true (some 0x91#8)).cfg.encRunningStatus = true ∧
      (encoderAt true (some 0x91#8)).txrs ≠ some (BitVec.ofNat 8 (0x90 + 0 % 16))) ∧
    ((encoderAt true (some 0x90#8)).cfg.encRunningStatus = true ∧
      (encoderAt true (some 0x90#8)).txrs = some (BitVec.ofNat 8 (0x90 + 0 % 16))) := by decide

/-- Each code with its count, and each ground for a refusal. -/
theorem witness_SystemCommonOperation :
    ([0x23] : List Nat).length = arity (some 0xF1#8) ∧
    ([0x10, 300] : List Nat).length = arity (some 0xF2#8) ∧
    ([5] : List Nat).length = arity (some 0xF3#8) ∧
    ([] : List Nat).length = arity (some 0xF6#8) ∧
    (0xF4#8 ≠ 0xF1#8 ∧ 0xF4#8 ≠ 0xF2#8 ∧ 0xF4#8 ≠ 0xF3#8 ∧ 0xF4#8 ≠ 0xF6#8) ∧
    ([0x10] : List Nat).length ≠ arity (some 0xF2#8) := by decide

theorem witness_RealTimeOperation : 0xF8#8 ≤ 0xF8#8 ∧ 0xF8#8 ≤ 0xFF#8 ∧ 0xF7#8 < 0xF8#8 := by decide

/-- A Message of each ground for a refusal, and one of each other kind. -/
theorem witness_RefusedExactlyWhenNotConstructible :
    (∃ c, Message.systemRealTime 0xF7#8 = .systemRealTime c ∧ c < 0xF8#8) ∧
    (∃ c ds, Message.systemCommon 0xF4#8 [] = .systemCommon c ds ∧
      ((c ≠ 0xF1#8 ∧ c ≠ 0xF2#8 ∧ c ≠ 0xF3#8 ∧ c ≠ 0xF6#8) ∨ ds.length ≠ arity (some c))) ∧
    (∃ c ds, Message.systemCommon 0xF2#8 [0x10] = .systemCommon c ds ∧
      ((c ≠ 0xF1#8 ∧ c ≠ 0xF2#8 ∧ c ≠ 0xF3#8 ∧ c ≠ 0xF6#8) ∨ ds.length ≠ arity (some c))) ∧
    ((∀ c, Message.systemRealTime 0xF8#8 = .systemRealTime c → 0xF8#8 ≤ c) ∧
      ∀ c ds, Message.systemRealTime 0xF8#8 = .systemCommon c ds →
        (c = 0xF1#8 ∨ c = 0xF2#8 ∨ c = 0xF3#8 ∨ c = 0xF6#8) ∧ ds.length = arity (some c)) ∧
    ((∀ c, Message.systemCommon 0xF2#8 [1, 2] = .systemRealTime c → 0xF8#8 ≤ c) ∧
      ∀ c ds, Message.systemCommon 0xF2#8 [1, 2] = .systemCommon c ds →
        (c = 0xF1#8 ∨ c = 0xF2#8 ∨ c = 0xF3#8 ∨ c = 0xF6#8) ∧ ds.length = arity (some c)) := by
  refine ⟨⟨_, rfl, by decide⟩, ⟨_, _, rfl, by decide⟩, ⟨_, _, rfl, by decide⟩, ⟨?_, ?_⟩, ⟨?_, ?_⟩⟩
  · intro c h; cases h; decide
  · intro c ds h; cases h
  · intro c h; cases h
  · intro c ds h; cases h; decide

theorem witness_FullWireFormSent :
    (constructible (.noteOn 15 127 127) = true ∧
      (encoderAt false none).cfg.encRunningStatus = false ∧
      (Message.noteOn 15 127 127).wellFormed = true) ∧
    (constructible (.noteOn 17 200 128) = true ∧
      (Message.noteOn 17 200 128).wellFormed = false) := by decide

/-- Each way `TXRS` changes. -/
theorem witness_TxrsChanges :
    (∃ t, exec (decodeMessage (.programChange 1 2)) (busy (.rx 0#8)) = .next t ∧
      t.txrs ≠ (busy (.rx 0#8)).txrs) ∧
    (∃ t, exec (.encSysCommon 0xF6#8 []) (busy (.rx 0#8)) = .next t ∧
      t.txrs ≠ (busy (.rx 0#8)).txrs) ∧
    (∃ t, exec (.reset .encoder) (busy (.rx 0#8)) = .next t ∧
      t.txrs ≠ (busy (.rx 0#8)).txrs) ∧
    (∃ t, exec (.reset .block) (busy (.rx 0#8)) = .next t ∧
      t.txrs ≠ (busy (.rx 0#8)).txrs) :=
  ⟨⟨_, rfl, by decide⟩, ⟨_, rfl, by decide⟩, ⟨_, rfl, by decide⟩, ⟨_, rfl, by decide⟩⟩

/-- A channel-voice Message with its status byte and without, a System Common and a real-time one. -/
theorem witness_OutputLengths :
    (constructible (.controlChange 0 7 0x65) = true ∧
      isVoiceMessage (.controlChange 0 7 0x65) = true ∧
      (busy (.rx 0#8)).cfg.encRunningStatus = true ∧
      (busy (.rx 0#8)).txrs = (wireForm (masked (.controlChange 0 7 0x65))).head?) ∧
    (constructible (.programChange 0 7) = true ∧ isVoiceMessage (.programChange 0 7) = true ∧
      (busy (.rx 0#8)).txrs ≠ (wireForm (masked (.programChange 0 7))).head?) ∧
    constructible (.systemCommon 0xF2#8 [1, 2]) = true ∧
    constructible (.systemRealTime 0xFF#8) = true := by decide

/-- A reset pair, and an encoder with a status standing beside a decoder that holds it; the Message
is well-formed. -/
theorem witness_RoundTrip :
    (constructible (.noteOn 0 0x3C 0) = true ∧ (Message.noteOn 0 0x3C 0).wellFormed = true) ∧
    Agree (encoderAt true none) (holding 0x80#8) ∧
    Agree (encoderAt true (some 0x90#8)) (decoderAt (some 0x90#8) none 2#2) ∧
    Agree (encoderAt false none) (holding 0xF2#8) := by decide

theorem witness_MessageListRoundTrip :
    (∀ m ∈ [Message.noteOn 0 0x3C 0x64, .noteOn 0 0x3E 0x64, .systemRealTime 0xF8#8,
      .systemCommon 0xF6#8 []], constructible m = true) ∧
    Agree (encoderAt true none) State.reset := by decide

theorem witness_DecoderAndEncoderIndependent :
    constructible (.pitchBend 0 0x2000) = true := by decide

/-- An instance whose step answers a next state, and one whose step is refused. -/
theorem witness_InstancesIndependent :
    (∃ s t, ([State.reset, busy (.rx 0x7F#8)] : Instances)[1]? = some s ∧ step s = .next t) ∧
    (∃ s r, ([busy (.txmsg (.systemRealTime 0#8))] : Instances)[0]? = some s ∧
      step s = .refused r) :=
  ⟨⟨_, _, rfl, rfl⟩, ⟨_, _, rfl, rfl⟩⟩

theorem witness_CreatedInstanceIsReset : 0 < ([State.reset] : Instances).length := by decide

theorem witness_ParametersNeverChange : ∃ t, step (busy (.reset .block)) = .next t := ⟨_, rfl⟩

theorem witness_DecoderDoesNotSeeEncoder :
    SameDecoder (busy (.rx 0#8)) (holding 0x90#8 |>.hold 0x40#7) ∧
    (busy (.rx 0#8)).cfg ≠ (holding 0x90#8).cfg ∧ (busy (.rx 0#8)).txrs ≠ (holding 0x90#8).txrs := by
  decide

/-- A well-formed Message of each shape of wire form, and kinds that hold its kind and that do not. -/
theorem witness_HandlersAreIndependent :
    (Message.noteOn 15 127 0).wellFormed = true ∧ (Message.programChange 0 127).wellFormed = true ∧
    (Message.pitchBend 0 16383).wellFormed = true ∧
    (Message.systemRealTime 0xFF#8).wellFormed = true ∧
    (Message.systemCommon 0xF6#8 []).wellFormed = true ∧
    kindOf (.noteOn 15 127 0) ∈ [MessageKind.noteOff, .noteOn] ∧
    kindOf (.noteOn 15 127 0) ∉ [MessageKind.noteOff, .pitchBend] := by decide

end Sys2Proof.Tests
end

section
/-! The reset values (spec/10_state.md R21): the registers of a created instance, the hardware bits of a
register that holds none, and what a reset of the block does to each register. -/

namespace Sys2Proof.Machine

/-! `State.initial` -/

@[simp] theorem State.initial_cfg (c : Config) : (State.initial c).cfg = c := rfl
@[simp] theorem State.initial_rs (c : Config) : (State.initial c).rs = none := rfl
@[simp] theorem State.initial_pend (c : Config) : (State.initial c).pend = none := rfl
@[simp] theorem State.initial_exp (c : Config) : (State.initial c).exp = 0#2 := rfl
@[simp] theorem State.initial_txrs (c : Config) : (State.initial c).txrs = none := rfl

/-! The hardware bits of R15 and R18 for a register that holds none. -/

theorem State.rsBits_of_none {s : State} (h : s.rs = none) : s.rsBits = 0x00#8 := by
  rw [State.rsBits, h, optionBits]

theorem State.pendV_of_none {s : State} (h : s.pend = none) : s.pendV = false := by
  rw [State.pendV, h, Option.isSome_none]

theorem State.txrsBits_of_none {s : State} (h : s.txrs = none) : s.txrsBits = 0x00#8 := by
  rw [State.txrsBits, h, optionBits]

/-- A reset of the block is the decoder's reset and the encoder's (R150, R151). -/
theorem exec_reset_block (s : State) :
    exec (.reset .block) s = .next s.clearDecoder.clearEncoder := rfl

/-- A reset of the block leaves `TXRS` none where it is present (R150). -/
theorem State.clearDecoder_clearEncoder_txrs {s : State} (h : s.cfg.encRunningStatus = true) :
    s.clearDecoder.clearEncoder.txrs = none := by
  rw [State.clearEncoder_txrs, State.clearDecoder_cfg, if_pos h]

/-- Settles O41: the reset values stand in a created instance by its definition, and in the state after
a block reset by what each part of the reset does to each register. -/
theorem resetValues : Obligations.ResetValues := by
  unfold Obligations.ResetValues
  refine ⟨fun c => ?created, ?rsBits, ?pendV, ?txrsBits, rfl, fun s => ?blockReset⟩
  case created => simp
  case rsBits => exact State.rsBits_of_none (State.initial_rs {})
  case pendV => exact State.pendV_of_none (State.initial_pend {})
  case txrsBits => exact State.txrsBits_of_none (State.initial_txrs {})
  case blockReset =>
    have hrs : s.clearDecoder.clearEncoder.rs = none := by simp
    have hpend : s.clearDecoder.clearEncoder.pend = none := by simp
    have hexp : s.clearDecoder.clearEncoder.exp = 0#2 := by simp
    exact ⟨_, exec_reset_block s, hrs, hpend, hexp, State.clearDecoder_clearEncoder_txrs,
      State.rsBits_of_none hrs, State.pendV_of_none hpend⟩

end Sys2Proof.Machine
end

section
/-! The ports' two sides (spec/20_memory.md R43): what a byte on `RX` and a Message on `TXMSG` each do,
that each reads and writes its own side of the block only, and so that the two commute. -/

namespace Sys2Proof.Machine

/-! What a byte on `RX` does, by the range of the byte (R70). -/

/-- The four ranges of a byte: data, the status bytes that `RS` can hold, 0xF6, and real-time. -/
theorem byte_cases (b : Byte) : b < 0x80#8 ∨ legalRs b ∨ b = 0xF6#8 ∨ 0xF8#8 ≤ b := by
  revert b; decide

/-- The instruction of a byte on `RX` is one of the byte's row: it gives the byte back. -/
theorem encode_decodeRx (b : Byte) : encode (decodeRx b) = .rx b := by
  revert b; decide

/-- A data byte is no status byte that `RS` can hold. -/
theorem not_legalRs_setWidth (v : Data) : ¬ legalRs (v.setWidth 8) := by
  revert v; decide

/-- A real-time byte is no status byte that `RS` can hold. -/
theorem not_legalRs_realTime (c : BitVec 3) : ¬ legalRs (0xF8#8 ||| c.setWidth 8) := by
  revert c; decide

/-- The instruction of a status byte that `RS` can hold puts that byte in `RS` (R71, R79). -/
theorem exec_of_encode_legalRs {i : Instr} {b : Byte} (hi : encode i = .rx b) (hb : legalRs b)
    (s : State) : exec i s = .next (s.setStatus b) := by
  cases i <;> cases hi
  case feedData v => exact absurd hb (not_legalRs_setWidth v)
  case feedTuneReq => exact absurd hb (by decide)
  case feedRt c => exact absurd hb (not_legalRs_realTime c)
  all_goals rfl

/-- A status byte that `RS` can hold (R71, R79). -/
theorem exec_decodeRx_of_legalRs {b : Byte} (hb : legalRs b) (s : State) :
    exec (decodeRx b) s = .next (s.setStatus b) :=
  exec_of_encode_legalRs (encode_decodeRx b) hb s

/-- 0xF6 (R85). -/
theorem exec_decodeRx_tuneReq (s : State) :
    exec (decodeRx 0xF6#8) s = .next (s.clearDecoder.emit (.systemCommon 0xF6#8 [])) := rfl

/-- A real-time byte (R87). -/
theorem exec_decodeRx_of_realTime {b : Byte} (hb : 0xF8#8 ≤ b) (s : State) :
    exec (decodeRx b) s = .next (s.emit (.systemRealTime b)) := by
  rw [decodeRx_of_realTime hb, exec, execFeedRt, realTime_byte hb]

/-- A data byte without running status (R91). -/
theorem exec_decodeRx_of_data_of_none {b : Byte} {s : State} (hb : b < 0x80#8) (hs : s.rs = none) :
    exec (decodeRx b) s = .next s := by
  rw [decodeRx_of_data hb, exec, execFeedData, hs]

/-- A data byte under running status `r` (R90). -/
theorem exec_decodeRx_of_data_of_some {b r : Byte} {s : State} (hb : b < 0x80#8)
    (hs : s.rs = some r) :
    exec (decodeRx b) s = .next (s.feedDataUnder r (dataBits b)) := by
  rw [decodeRx_of_data hb, exec, execFeedData, hs]

/-! What a Message on `TXMSG` does. -/

/-- Every channel-voice Message is sent by `cv` (R111 to R117). -/
theorem exec_decodeMessage_of_voice {m : Message} (h : isVoiceMessage m = true) :
    ∃ st ds, ∀ s, exec (decodeMessage m) s = .next (s.sendVoice st ds) := by
  cases m
  case systemRealTime => cases h
  case systemCommon => cases h
  all_goals exact ⟨_, _, fun _ => rfl⟩

/-! A feed neither reads nor writes the encoder's side. -/

/-- `s` with the encoder's side of `e`: its `TXRS` and its record of `TX`. -/
def State.withEncoder (s e : State) : State := { s with txrs := e.txrs, txOut := e.txOut }

theorem State.emitBuilt_withEncoder (m : Option Message) (s e : State) :
    (s.withEncoder e).emitBuilt m = (s.emitBuilt m).withEncoder e := by
  cases m <;> rfl

/-- A data byte under running status does the same whatever the encoder's side is. -/
theorem State.feedDataUnder_withEncoder (r : Byte) (d : Data) (s e : State) :
    (s.withEncoder e).feedDataUnder r d = (s.feedDataUnder r d).withEncoder e := by
  have hp : (s.withEncoder e).pend = s.pend := rfl
  unfold State.feedDataUnder
  rw [hp]
  cases clsByte r
  case cv2 => exact State.emitBuilt_withEncoder _ s e
  case cv3 =>
    cases s.pend with
    | none => rfl
    | some p => exact congrArg State.release (State.emitBuilt_withEncoder _ s e)
  case sc2 => cases s.pend <;> rfl
  all_goals rfl

/-- Every byte is taken, and does the same whatever the encoder's side is (R43, R46). -/
theorem exec_decodeRx_withEncoder (b : Byte) (s : State) :
    ∃ t, exec (decodeRx b) s = .next t ∧
      ∀ e, exec (decodeRx b) (s.withEncoder e) = .next (t.withEncoder e) := by
  obtain hb | hb | rfl | hb := byte_cases b
  · cases hs : s.rs with
    | none =>
      exact ⟨_, exec_decodeRx_of_data_of_none hb hs, fun _ => exec_decodeRx_of_data_of_none hb hs⟩
    | some r =>
      refine ⟨_, exec_decodeRx_of_data_of_some hb hs, fun e => ?_⟩
      rw [← State.feedDataUnder_withEncoder]
      exact exec_decodeRx_of_data_of_some hb hs
  · exact ⟨_, exec_decodeRx_of_legalRs hb s, fun _ => exec_decodeRx_of_legalRs hb _⟩
  · exact ⟨_, exec_decodeRx_tuneReq s, fun _ => exec_decodeRx_tuneReq _⟩
  · exact ⟨_, exec_decodeRx_of_realTime hb s, fun _ => exec_decodeRx_of_realTime hb _⟩

/-- A feed leaves the encoder's side as it is: fed with its own encoder's side in place, a state keeps
it. -/
theorem encoderUntouched_of_feed {b : Byte} {s t : State} (h : exec (decodeRx b) s = .next t) :
    EncoderUntouched s t := by
  obtain ⟨t', ht', hblind⟩ := exec_decodeRx_withEncoder b s
  obtain rfl : t = t' := Host.Outcome.next.inj (h.symm.trans ht')
  have hself : t.withEncoder s = t := Host.Outcome.next.inj ((hblind s).symm.trans h)
  obtain ⟨hcfg, hinbox, hcount⟩ := exec_keeps h
  rw [← hself]
  exact ⟨hcfg, rfl, rfl, hinbox, hcount⟩

/-! An encode neither reads nor writes the decoder's side. -/

/-- `s` with the decoder's side of `d`: its three registers and its record of `MSG`. -/
def State.withDecoder (s d : State) : State :=
  { s with rs := d.rs, pend := d.pend, exp := d.exp, msgOut := d.msgOut }

theorem State.setTxrs_withDecoder (v : Option Byte) (s d : State) :
    (s.withDecoder d).setTxrs v = (s.setTxrs v).withDecoder d := by
  rw [State.setTxrs_eq, State.setTxrs_eq]; rfl

theorem State.sendVoice_withDecoder (st : Byte) (ds : List Byte) (s d : State) :
    (s.withDecoder d).sendVoice st ds = (s.sendVoice st ds).withDecoder d := by
  rw [State.sendVoice, State.sendVoice, State.setTxrs_withDecoder, apply_ite (State.withDecoder · d)]
  rfl

/-- Every channel-voice Message is encoded, and alike whatever the decoder's side is (R43). -/
theorem exec_decodeMessage_withDecoder_of_voice {m : Message} (hm : isVoiceMessage m = true)
    (s : State) :
    ∃ u, exec (decodeMessage m) s = .next u ∧
      ∀ d, exec (decodeMessage m) (s.withDecoder d) = .next (u.withDecoder d) := by
  obtain ⟨st, ds, hsend⟩ := exec_decodeMessage_of_voice hm
  refine ⟨_, hsend s, fun d => ?_⟩
  rw [← State.sendVoice_withDecoder]
  exact hsend _

/-- Every constructible Message is encoded, and alike whatever the decoder's side is (R43, R120). -/
theorem exec_decodeMessage_withDecoder {m : Message} (hm : constructible m = true) (s : State) :
    ∃ u, exec (decodeMessage m) s = .next u ∧
      ∀ d, exec (decodeMessage m) (s.withDecoder d) = .next (u.withDecoder d) := by
  cases m
  case systemRealTime c =>
    exact ⟨_, exec_encRt_of_constructible s hm, fun _ => exec_encRt_of_constructible _ hm⟩
  case systemCommon c ds =>
    refine ⟨_, exec_encSysCommon_of_constructible s hm, fun d => ?_⟩
    refine (exec_encSysCommon_of_constructible _ hm).trans ?_
    rw [State.setTxrs_withDecoder]
    rfl
  all_goals exact exec_decodeMessage_withDecoder_of_voice rfl s

/-- An encode leaves the decoder's side as it is, by the same argument. -/
theorem decoderUntouched_of_encode {m : Message} {s u : State} (hm : constructible m = true)
    (h : exec (decodeMessage m) s = .next u) : DecoderUntouched s u := by
  obtain ⟨u', hu', hblind⟩ := exec_decodeMessage_withDecoder hm s
  obtain rfl : u = u' := Host.Outcome.next.inj (h.symm.trans hu')
  have hself : u.withDecoder s = u := Host.Outcome.next.inj ((hblind s).symm.trans h)
  obtain ⟨hcfg, hinbox, hcount⟩ := exec_keeps h
  rw [← hself]
  exact ⟨hcfg, ⟨rfl, rfl, rfl⟩, rfl, hinbox, hcount⟩

/-! The two sides put together. -/

/-- A state that only the decoder's side tells from `s` is `s` with that side. -/
theorem State.withDecoder_of_encoderUntouched {s t : State} (h : EncoderUntouched s t) :
    s.withDecoder t = t := by
  obtain ⟨hcfg, htxrs, htx, hinbox, hcount⟩ := h
  exact State.eq_of_fields hcfg.symm rfl rfl rfl htxrs.symm hinbox.symm hcount.symm rfl htx.symm

/-- A state that only the encoder's side tells from `s` is `s` with that side. -/
theorem State.withEncoder_of_decoderUntouched {s u : State} (h : DecoderUntouched s u) :
    s.withEncoder u = u := by
  obtain ⟨hcfg, ⟨hrs, hpend, hexp⟩, hmsg, hinbox, hcount⟩ := h
  exact State.eq_of_fields hcfg.symm hrs.symm hpend.symm hexp.symm rfl hinbox.symm hcount.symm
    hmsg.symm rfl

/-- The decoder's side of `t` beside the encoder's side of `u`, put together in either order. -/
theorem State.withEncoder_eq_withDecoder {s t u : State} (ht : EncoderUntouched s t)
    (hu : DecoderUntouched s u) : t.withEncoder u = u.withDecoder t := by
  obtain ⟨htcfg, -, -, htinbox, htcount⟩ := ht
  obtain ⟨hucfg, -, -, huinbox, hucount⟩ := hu
  exact State.eq_of_fields (htcfg.trans hucfg.symm) rfl rfl rfl rfl (htinbox.trans huinbox.symm)
    (htcount.trans hucount.symm) rfl rfl

/-- Settles O53: each step is blind to the other's side and leaves it alone, so after both, in either
order, the state has the feed's decoder side and the encode's encoder side. -/
theorem decoderAndEncoderIndependent : Obligations.DecoderAndEncoderIndependent := by
  unfold Obligations.DecoderAndEncoderIndependent
  intro b m s
  obtain ⟨t, ht, hfeed⟩ := exec_decodeRx_withEncoder b s
  have htFrame := encoderUntouched_of_feed ht
  refine ⟨t, ht, htFrame, fun hm => ?_⟩
  obtain ⟨u, hu, hencode⟩ := exec_decodeMessage_withDecoder hm s
  have huFrame := decoderUntouched_of_encode hm hu
  have hencodeAfter := hencode t
  rw [State.withDecoder_of_encoderUntouched htFrame] at hencodeAfter
  have hfeedAfter := hfeed u
  rw [State.withEncoder_of_decoderUntouched huFrame,
    State.withEncoder_eq_withDecoder htFrame huFrame] at hfeedAfter
  exact ⟨u, u.withDecoder t, hu, huFrame, hencodeAfter, hfeedAfter⟩

end Sys2Proof.Machine
end

section
/-! The classes and arities of a status byte (spec/30_encoding.md R56, R57): the ranges of the
channel-voice and real-time classes, and the count of data bytes that goes with each class. -/

namespace Sys2Proof.Machine

/-- The CV3 statuses below the CV2 ones (R56). -/
theorem clsByte_of_80_to_BF {s : Byte} (hlo : 0x80#8 ≤ s) (hhi : s ≤ 0xBF#8) :
    clsByte s = .cv3 := by
  have hC0 : s < 0xC0#8 := by bv_omega
  rw [clsByte, if_neg (BitVec.not_lt.mpr hlo), if_pos hC0]

/-- The CV2 statuses (R56). -/
theorem clsByte_of_C0_to_DF {s : Byte} (hlo : 0xC0#8 ≤ s) (hhi : s ≤ 0xDF#8) :
    clsByte s = .cv2 := by
  have h80 : 0x80#8 ≤ s := BitVec.le_trans (by decide) hlo
  have hE0 : s < 0xE0#8 := by bv_omega
  rw [clsByte, if_neg (BitVec.not_lt.mpr h80), if_neg (BitVec.not_lt.mpr hlo), if_pos hE0]

/-- The CV3 statuses above the CV2 ones (R56). -/
theorem clsByte_of_E0_to_EF {s : Byte} (hlo : 0xE0#8 ≤ s) (hhi : s ≤ 0xEF#8) :
    clsByte s = .cv3 := by
  have h80 : 0x80#8 ≤ s := BitVec.le_trans (by decide) hlo
  have hC0 : 0xC0#8 ≤ s := BitVec.le_trans (by decide) hlo
  have hF0 : s < 0xF0#8 := by bv_omega
  rw [clsByte, if_neg (BitVec.not_lt.mpr h80), if_neg (BitVec.not_lt.mpr hC0),
    if_neg (BitVec.not_lt.mpr hlo), if_pos hF0]

/-- The real-time statuses (R56). -/
theorem clsByte_of_realTime {s : Byte} (hlo : 0xF8#8 ≤ s) : clsByte s = .rt := by
  have h80 : 0x80#8 ≤ s := BitVec.le_trans (by decide) hlo
  have hC0 : 0xC0#8 ≤ s := BitVec.le_trans (by decide) hlo
  have hE0 : 0xE0#8 ≤ s := BitVec.le_trans (by decide) hlo
  have hF0 : 0xF0#8 ≤ s := BitVec.le_trans (by decide) hlo
  rw [clsByte, if_neg (BitVec.not_lt.mpr h80), if_neg (BitVec.not_lt.mpr hC0),
    if_neg (BitVec.not_lt.mpr hE0), if_neg (BitVec.not_lt.mpr hF0), if_pos hlo]

/-- The unclassified statuses (R56, R58). -/
theorem clsByte_of_unclassified {s : Byte}
    (h : s = 0xF0#8 ∨ s = 0xF4#8 ∨ s = 0xF5#8 ∨ s = 0xF7#8) : clsByte s = .uncl := by
  obtain rfl | rfl | rfl | rfl := h <;> rfl

/-- The class of a status byte gives its arity (R57). -/
theorem cls_arity_of_clsByte {s : Byte} {c : StatusClass} (h : clsByte s = c) :
    cls (some s) = c ∧ arity (some s) = c.dataBytes :=
  ⟨h, congrArg StatusClass.dataBytes h⟩

/-- Settles O6: each range or value of R56 has its class by the lemma on it, and the class gives the
arity. -/
theorem statusClassMap : Obligations.StatusClassMap := by
  unfold Obligations.StatusClassMap
  refine ⟨rfl, rfl, fun s => ⟨?cv3Low, ?cv3High, ?cv2, ?sc2, ?sc1, ?sc0, ?uncl, ?rt⟩⟩
  case cv3Low => exact fun ⟨hlo, hhi⟩ => cls_arity_of_clsByte (clsByte_of_80_to_BF hlo hhi)
  case cv3High => exact fun ⟨hlo, hhi⟩ => cls_arity_of_clsByte (clsByte_of_E0_to_EF hlo hhi)
  case cv2 => exact fun ⟨hlo, hhi⟩ => cls_arity_of_clsByte (clsByte_of_C0_to_DF hlo hhi)
  case sc2 => rintro rfl; exact cls_arity_of_clsByte rfl
  case sc1 => rintro (rfl | rfl) <;> exact cls_arity_of_clsByte rfl
  case sc0 => rintro rfl; exact cls_arity_of_clsByte rfl
  case uncl => exact fun h => cls_arity_of_clsByte (clsByte_of_unclassified h)
  case rt => exact fun h => cls_arity_of_clsByte (clsByte_of_realTime h)

end Sys2Proof.Machine
end

section
/-! What a status byte does to the decoder (spec/40_decoder_status.md R71, R79, R85 to R88), and that a
System Common or SysEx status byte cancels the channel-voice running status (R79). -/

namespace Sys2Proof.Machine

/-! Bytes and the ranges they lie in. -/

/-- A channel-voice status byte is one that `RS` can hold. -/
theorem legalRs_of_voiceByte {b : Byte} (h : voiceByte b) : legalRs b := by
  revert b; decide

/-- A byte of 0xF0 or above is no channel-voice status byte. -/
theorem not_voiceByte_of_F0_le {b : Byte} (h : 0xF0#8 ≤ b) : ¬ voiceByte b := by
  revert b; decide

/-- The classes CV2 and CV3 hold channel-voice status bytes only (R56). -/
theorem voiceByte_of_clsByte {r : Byte} (h : clsByte r = .cv2 ∨ clsByte r = .cv3) : voiceByte r := by
  revert r; decide

/-! The steps of single bytes. -/

/-- Settles O12: a channel-voice status byte is one that `RS` can hold, and its step puts it there. -/
theorem channelVoiceStatusAction : Obligations.ChannelVoiceStatusAction := by
  unfold Obligations.ChannelVoiceStatusAction
  intro b s hlo hhi
  exact exec_decodeRx_of_legalRs (legalRs_of_voiceByte ⟨hlo, hhi⟩) s

/-- FEED_DATA without running status (R91). -/
theorem exec_feedData_of_none {s : State} (hs : s.rs = none) (v : Data) :
    exec (.feedData v) s = .next s := by
  rw [exec, execFeedData, hs]

/-- Settles O16: the step of 0xF6 clears the decoder and emits, so that the data byte after it finds no
running status. -/
theorem tuneRequestEmitted : Obligations.TuneRequestEmitted := by
  unfold Obligations.TuneRequestEmitted
  intro s
  exact ⟨_, rfl, exec_decodeRx_tuneReq s, rfl, exec_feedData_of_none rfl⟩

/-- Settles O17: a real-time byte decodes to FEED_RT, whose step only emits. -/
theorem realTimeByteEmitted : Obligations.RealTimeByteEmitted := by
  unfold Obligations.RealTimeByteEmitted
  refine ⟨fun b s hb => ⟨decodeRx_of_realTime hb, exec_decodeRx_of_realTime hb s⟩, fun c s => ?operand⟩
  case operand => rw [exec, execFeedRt, State.emit]

/-! Runs of bytes: what every byte's step keeps, a run of bytes keeps. -/

/-- The first byte of a run takes its step, and the run goes on from there. -/
theorem feedAll_cons_next {b : Byte} {bs : List Byte} {s t : State}
    (h : feedAll (b :: bs) s = .next t) :
    ∃ u, exec (decodeRx b)
        { s with inbox := bs.map Transfer.rx, rxCount := s.rxCount + 1 } = .next u ∧
      feedAll bs u = .next t := by
  obtain ⟨u, hu, -⟩ := exec_decodeRx_withEncoder b
    { s with inbox := bs.map Transfer.rx, rxCount := s.rxCount + 1 }
  exact ⟨u, hu, (run_cons_of_next (t := .rx b) hu).symm.trans h⟩

/-- A predicate that the step of each byte keeps, and that does not read the model's own fields for the
moves to come and the count of bytes, holds at the end of a run if it holds at the start. -/
theorem feedAll_keeps {P : State → Prop}
    (hframe : ∀ s moves count, P s → P { s with inbox := moves, rxCount := count })
    {bs : List Byte} (hstep : ∀ b ∈ bs, ∀ s t, P s → exec (decodeRx b) s = .next t → P t)
    {s t : State} (hs : P s) (h : feedAll bs s = .next t) : P t := by
  induction bs generalizing s with
  | nil =>
    obtain rfl : s.load [] = t := Host.Outcome.next.inj h
    exact hframe s [] s.rxCount hs
  | cons b bs ih =>
    obtain ⟨u, hu, hrest⟩ := feedAll_cons_next h
    have hPu : P u := hstep b List.mem_cons_self _ u (hframe s _ _ hs) hu
    exact ih (fun x hx => hstep x (List.mem_cons_of_mem b hx)) hPu hrest

/-- The Messages of a run are those behind its start's record. -/
theorem newMessages_of_msgOut {s t : State} {es : List (Nat × Message)}
    (h : t.msgOut = s.msgOut ++ es) : newMessages s t = es.map Prod.snd := by
  rw [newMessages, h, List.drop_left]

/-! No channel-voice status, no channel-voice Message (R79). -/

/-- In `t` the running status is no channel-voice one, and no channel-voice Message was emitted since
`u`. -/
def NoVoiceSince (u t : State) : Prop :=
  (∀ r ∈ t.rs, ¬ voiceByte r) ∧
  ∃ es, t.msgOut = u.msgOut ++ es ∧ ∀ e ∈ es, isVoiceMessage e.2 = false

/-- It holds at the start where the running status is no channel-voice one. -/
theorem NoVoiceSince.start {u : State} (h : ∀ r ∈ u.rs, ¬ voiceByte r) : NoVoiceSince u u :=
  ⟨h, [], (List.append_nil _).symm, by simp⟩

/-- A step that emits nothing and leaves no channel-voice running status keeps it. -/
theorem NoVoiceSince.of_silent {u s t : State} (h : NoVoiceSince u s) (hmsg : t.msgOut = s.msgOut)
    (hrs : ∀ r ∈ t.rs, ¬ voiceByte r) : NoVoiceSince u t := by
  obtain ⟨-, es, hes, hvoice⟩ := h
  exact ⟨hrs, es, hmsg.trans hes, hvoice⟩

/-- A step that emits another Message and leaves no channel-voice running status keeps it. -/
theorem NoVoiceSince.of_emit {u s t : State} {m : Message} (h : NoVoiceSince u s)
    (hm : isVoiceMessage m = false) (hmsg : t.msgOut = s.msgOut ++ [(s.rxCount, m)])
    (hrs : ∀ r ∈ t.rs, ¬ voiceByte r) : NoVoiceSince u t := by
  obtain ⟨-, es, hes, hvoice⟩ := h
  refine ⟨hrs, es ++ [(s.rxCount, m)], by rw [hmsg, hes, List.append_assoc], fun e he => ?_⟩
  obtain he | he := List.mem_append.mp he
  · exact hvoice e he
  · rw [List.mem_singleton.mp he]; exact hm

/-- A data byte keeps it: what a status that is no channel-voice one completes is a System Common
Message. -/
theorem NoVoiceSince.feedDataUnder {u s : State} {r : Byte} (h : NoVoiceSince u s)
    (hs : s.rs = some r) (d : Data) : NoVoiceSince u (s.feedDataUnder r d) := by
  have hrs : ∀ x ∈ s.rs, ¬ voiceByte x := h.1
  have hr : ¬ voiceByte r := hrs r hs
  rcases State.feedDataUnder_cases r d s with ⟨-, ht⟩ | ⟨hcv2, -⟩ | ⟨-, ht⟩ | ⟨-, -, ht⟩ |
    ⟨hcv3, -⟩ | ⟨-, p, -, ht⟩
  case inl => rw [ht]; exact h
  case inr.inl => exact absurd (voiceByte_of_clsByte (.inl hcv2)) hr
  case inr.inr.inl => rw [ht]; exact h.of_emit rfl rfl (by simp)
  case inr.inr.inr.inl => rw [ht]; exact h.of_silent rfl hrs
  case inr.inr.inr.inr.inl => exact absurd (voiceByte_of_clsByte (.inr hcv3)) hr
  case inr.inr.inr.inr.inr => rw [ht]; exact h.of_emit rfl rfl (by simp)

/-- Every byte but a channel-voice status byte keeps it. -/
theorem NoVoiceSince.feed {u s t : State} {b : Byte} (h : NoVoiceSince u s) (hb : ¬ voiceByte b)
    (ht : exec (decodeRx b) s = .next t) : NoVoiceSince u t := by
  obtain hdata | hlegal | rfl | hrt := byte_cases b
  · cases hs : s.rs with
    | none =>
      rw [exec_decodeRx_of_data_of_none hdata hs] at ht
      cases ht; exact h
    | some r =>
      rw [exec_decodeRx_of_data_of_some hdata hs] at ht
      cases ht; exact h.feedDataUnder hs _
  · rw [exec_decodeRx_of_legalRs hlegal] at ht
    cases ht
    exact h.of_silent rfl (by simpa using hb)
  · rw [exec_decodeRx_tuneReq] at ht
    cases ht
    exact h.of_emit rfl rfl (by simp)
  · rw [exec_decodeRx_of_realTime hrt] at ht
    cases ht
    exact h.of_emit rfl rfl h.1

/-- Settles O14: the byte is put in `RS`, which then holds no channel-voice status; every byte that is
none itself keeps it so and emits no channel-voice Message, and hence so does the run. -/
theorem systemStatusAction : Obligations.SystemStatusAction := by
  unfold Obligations.SystemStatusAction
  intro b s hlo hhi hne
  have hlegal : legalRs b := ⟨BitVec.le_trans (by decide) hlo, hhi, hne⟩
  refine ⟨_, exec_decodeRx_of_legalRs hlegal s, rfl, fun bs t hbs hrun => ?_⟩
  have hstart : NoVoiceSince (s.setStatus b) (s.setStatus b) :=
    .start (by simpa using not_voiceByte_of_F0_le hlo)
  obtain ⟨-, es, hes, hvoice⟩ : NoVoiceSince (s.setStatus b) t :=
    feedAll_keeps (fun _ _ _ h => h) (fun x hx _ _ h => h.feed (hbs x hx)) hstart hrun
  rw [newMessages_of_msgOut hes]
  exact List.forall_mem_map.mpr hvoice

end Sys2Proof.Machine
end

section
/-! A decoder step is the spec's pseudocode `feed(b)`, and its effect on the phase and on `MSG` is the
row of the transition table (spec/40_decoder_status.md R70, spec/41_decoder_data.md R90). -/

namespace Sys2Proof.Machine

/-! The ranges of bytes, the value of a data byte, and the class of Song Position. -/

/-- A status byte that `RS` can hold is no real-time byte. -/
theorem not_realTime_of_legalRs {b : Byte} (hb : legalRs b) : ¬ 0xF8#8 ≤ b := by
  obtain ⟨-, hhi, -⟩ := hb
  bv_omega

/-- A data byte is none of the status bytes that the pseudocode and the table test for. -/
theorem not_status_of_data {b : Byte} (hb : b < 0x80#8) :
    ¬ 0xF8#8 ≤ b ∧ b ≠ 0xF6#8 ∧ ¬ 0x80#8 ≤ b := by
  revert b; decide

/-- The value of a data byte is its low 7 bits (R52). -/
theorem dataBits_eq_setWidth (b : Byte) : dataBits b = b.setWidth 7 := by
  revert b; decide

/-- The value of a data byte as a number is the byte's. -/
theorem toNat_dataBits {b : Byte} (hb : b < 0x80#8) : (dataBits b).toNat = b.toNat := by
  revert b; decide

/-- 0xF2 is the only status of class SC2 (R56). -/
theorem eq_F2_of_clsByte {r : Byte} (h : clsByte r = .sc2) : r = 0xF2#8 := by
  revert r; decide

/-! The pseudocode `feed(b)`, by the range of the byte. -/

theorem Reference.emitSome_eq_emitBuilt (m : Option Message) (s : State) :
    Reference.emitSome m s = s.emitBuilt m := by
  cases m <;> rfl

/-- `feed_data(b)` without running status (R91). -/
theorem Reference.feedData_of_none {s : State} (hs : s.rs = none) (b : Byte) :
    Reference.feedData b s = s := by
  rw [Reference.feedData, hs]

/-- `feed_data(b)` under running status `r` (R90): by the class of `r` and the pending byte. -/
theorem Reference.feedData_of_some {s : State} {r : Byte} (hs : s.rs = some r) (b : Byte) :
    Reference.feedData b s = s.feedDataUnder r (b.setWidth 7) := by
  obtain ⟨cfg, rs, pend, exp, txrs, inbox, rxCount, msgOut, txOut⟩ := s
  obtain rfl : rs = some r := hs
  simp only [Reference.feedData, State.feedDataUnder, cls, Reference.emitSome_eq_emitBuilt]
  cases hc : clsByte r
  case cv3 => cases pend <;> rfl
  case sc2 =>
    obtain rfl := eq_F2_of_clsByte hc
    cases pend <;> rfl
  all_goals rfl

theorem Reference.feed_of_data {b : Byte} (hb : b < 0x80#8) (s : State) :
    Reference.feed b s = Reference.feedData b s :=
  if_pos hb

theorem Reference.feed_of_legalRs {b : Byte} (hb : legalRs b) (s : State) :
    Reference.feed b s = s.setStatus b := by
  have hrt := not_realTime_of_legalRs hb
  obtain ⟨hlo, -, hne⟩ := hb
  rw [Reference.feed, if_neg (BitVec.not_lt.mpr hlo), if_neg hrt, if_neg hne, ite_self]
  rfl

theorem Reference.feed_of_realTime {b : Byte} (hb : 0xF8#8 ≤ b) (s : State) :
    Reference.feed b s = s.emit (.systemRealTime b) := by
  have hlo : 0x80#8 ≤ b := BitVec.le_trans (by decide) hb
  rw [Reference.feed, if_neg (BitVec.not_lt.mpr hlo), if_pos hb]
  rfl

/-- The meaning of a byte on `RX` is the pseudocode's. -/
theorem exec_decodeRx_eq_feed (b : Byte) (s : State) :
    exec (decodeRx b) s = .next (Reference.feed b s) := by
  obtain hdata | hlegal | rfl | hrt := byte_cases b
  · rw [Reference.feed_of_data hdata]
    cases hs : s.rs with
    | none => rw [exec_decodeRx_of_data_of_none hdata hs, Reference.feedData_of_none hs]
    | some r =>
      rw [exec_decodeRx_of_data_of_some hdata hs, Reference.feedData_of_some hs,
        dataBits_eq_setWidth]
  · rw [exec_decodeRx_of_legalRs hlegal, Reference.feed_of_legalRs hlegal]
  · rfl
  · rw [exec_decodeRx_of_realTime hrt, Reference.feed_of_realTime hrt]

/-! The phase of a state (R17), by its running status and its pending byte. -/

theorem State.phase_of_none {s : State} (hs : s.rs = none) : s.phase = .idle := by
  rw [State.phase, hs]

theorem State.phase_of_arity_zero {s : State} {r : Byte} (hs : s.rs = some r)
    (h : arity (some r) = 0) : s.phase = .drop := by
  simp [State.phase, hs, h]

theorem State.phase_of_arity_one {s : State} {r : Byte} (hs : s.rs = some r)
    (h : arity (some r) = 1) : s.phase = .wait1 := by
  simp [State.phase, hs, h]

theorem State.phase_of_arity_two_of_none {s : State} {r : Byte} (hs : s.rs = some r)
    (h : arity (some r) = 2) (hp : s.pend = none) : s.phase = .wait2a := by
  simp [State.phase, State.pendV, hs, h, hp]

theorem State.phase_of_arity_two_of_some {s : State} {r : Byte} {p : Data} (hs : s.rs = some r)
    (h : arity (some r) = 2) (hp : s.pend = some p) : s.phase = .wait2b := by
  simp [State.phase, State.pendV, hs, h, hp]

/-- The arity of a class's status (R57). -/
theorem arity_of_clsByte {r : Byte} {c : StatusClass} (h : clsByte r = c) :
    arity (some r) = c.dataBytes :=
  (cls_arity_of_clsByte h).2

/-- A status has no, one or two data bytes (R57). -/
theorem arity_cases (r : Byte) : arity (some r) = 0 ∨ arity (some r) = 1 ∨ arity (some r) = 2 := by
  revert r; decide

/-! The transition table of R70, by the range of the byte. -/

theorem Reference.phaseAfter_of_realTime {b : Byte} (hb : 0xF8#8 ≤ b) (p : Phase)
    (c : StatusClass) : Reference.phaseAfter b p c = p :=
  if_pos hb

theorem Reference.emitted_of_realTime {b : Byte} (hb : 0xF8#8 ≤ b) (p : Phase)
    (rs : Option Byte) (pend : Option Data) :
    Reference.emitted b p rs pend = some (.systemRealTime b) :=
  if_pos hb

/-- The column of a status byte that `RS` can hold is the phase in which its first data byte is
awaited, whatever the row. -/
theorem Reference.phaseAfter_of_legalRs {b : Byte} (hb : legalRs b) (p : Phase) (c : StatusClass)
    (s : State) : Reference.phaseAfter b p c = (s.setStatus b).phase := by
  have hrt := not_realTime_of_legalRs hb
  obtain ⟨hlo, -, hne⟩ := hb
  have hrow : Reference.phaseAfter b p c =
      if arity (some b) = 2 then .wait2a else if arity (some b) = 1 then .wait1 else .drop :=
    (if_neg hrt).trans ((if_neg hne).trans (if_pos hlo))
  rw [hrow]
  obtain ha | ha | ha := arity_cases b
  · rw [State.phase_of_arity_zero rfl ha, ha]; rfl
  · rw [State.phase_of_arity_one rfl ha, ha]; rfl
  · rw [State.phase_of_arity_two_of_none rfl ha rfl, ha]; rfl

theorem Reference.emitted_of_legalRs {b : Byte} (hb : legalRs b) (p : Phase)
    (rs : Option Byte) (pend : Option Data) : Reference.emitted b p rs pend = none := by
  have hrt := not_realTime_of_legalRs hb
  obtain ⟨hlo, -, hne⟩ := hb
  exact (if_neg hrt).trans ((if_neg hne).trans (if_pos hlo))

/-- The column of the data bytes is one: it is that of 0x00. -/
theorem Reference.phaseAfter_of_data {b : Byte} (hb : b < 0x80#8) (p : Phase) (c : StatusClass) :
    Reference.phaseAfter b p c = Reference.phaseAfter 0x00#8 p c := by
  obtain ⟨hrt, htune, hst⟩ := not_status_of_data hb
  exact (if_neg hrt).trans ((if_neg htune).trans (if_neg hst))

/-- A data byte emits nothing in a phase that waits for no last data byte. -/
theorem Reference.emitted_of_data_of_not_last {b : Byte} (hb : b < 0x80#8) {p : Phase}
    (hp : p = .idle ∨ p = .drop ∨ p = .wait2a) (rs : Option Byte) (pend : Option Data) :
    Reference.emitted b p rs pend = none := by
  obtain ⟨hrt, htune, hst⟩ := not_status_of_data hb
  obtain rfl | rfl | rfl := hp <;>
    exact (if_neg hrt).trans ((if_neg htune).trans (if_neg hst))

/-- In WAIT1 a data byte completes a Message of one data byte. -/
theorem Reference.emitted_of_data_wait1 {b : Byte} (hb : b < 0x80#8) (r : Byte)
    (pend : Option Data) :
    Reference.emitted b .wait1 (some r) pend =
      if clsByte r = .cv2 then build1 r (dataBits b)
      else some (.systemCommon r [(dataBits b).toNat]) := by
  obtain ⟨hrt, htune, hst⟩ := not_status_of_data hb
  rw [toNat_dataBits hb, dataBits_eq_setWidth]
  exact (if_neg hrt).trans ((if_neg htune).trans (if_neg hst))

/-- In WAIT2B a data byte completes a Message of two data bytes. -/
theorem Reference.emitted_of_data_wait2b {b : Byte} (hb : b < 0x80#8) (r : Byte) (p : Data) :
    Reference.emitted b .wait2b (some r) (some p) =
      if clsByte r = .cv3 then build2 r p (dataBits b)
      else some (.systemCommon 0xF2#8 [p.toNat, (dataBits b).toNat]) := by
  obtain ⟨hrt, htune, hst⟩ := not_status_of_data hb
  rw [toNat_dataBits hb, dataBits_eq_setWidth]
  exact (if_neg hrt).trans ((if_neg htune).trans (if_neg hst))

/-! Each thing a byte can do is a row of the table. -/

/-- The step of byte `b` from `s` to `t` is the table's: the phase it moves to, and what it emits. -/
def FollowsTable (b : Byte) (s t : State) : Prop :=
  t.phase = Reference.phaseAfter b s.phase (cls s.rs) ∧
  t.msgOut =
    s.msgOut ++ ((Reference.emitted b s.phase s.rs s.pend).toList.map fun m => (s.rxCount, m))

/-- A step into the table's phase that emits nothing, where the table emits nothing. -/
theorem FollowsTable.of_silent {b : Byte} {s t : State}
    (hphase : t.phase = Reference.phaseAfter b s.phase (cls s.rs)) (hmsg : t.msgOut = s.msgOut)
    (hrow : Reference.emitted b s.phase s.rs s.pend = none) : FollowsTable b s t :=
  ⟨hphase, by rw [hrow, hmsg]; exact (List.append_nil _).symm⟩

/-- A step into the table's phase that emits the Message the table emits. -/
theorem FollowsTable.of_emit {b : Byte} {s t : State} {m : Message}
    (hphase : t.phase = Reference.phaseAfter b s.phase (cls s.rs))
    (hmsg : t.msgOut = s.msgOut ++ [(s.rxCount, m)])
    (hrow : Reference.emitted b s.phase s.rs s.pend = some m) : FollowsTable b s t :=
  ⟨hphase, by rw [hrow, hmsg]; rfl⟩

/-- A data byte without running status stays in IDLE (R91). -/
theorem FollowsTable.data_of_none {b : Byte} (hb : b < 0x80#8) {s : State} (hs : s.rs = none) :
    FollowsTable b s s := by
  have hp := State.phase_of_none hs
  refine .of_silent ?phase rfl ?row
  case phase => rw [Reference.phaseAfter_of_data hb, hp]; rfl
  case row => exact Reference.emitted_of_data_of_not_last hb (.inl hp) _ _

/-- A data byte under running status `r`: one row for each thing it can do (R91 to R97). -/
theorem FollowsTable.data_of_some {b r : Byte} (hb : b < 0x80#8) {s : State} (hs : s.rs = some r) :
    FollowsTable b s (s.feedDataUnder r (dataBits b)) := by
  rcases State.feedDataUnder_cases r (dataBits b) s with ⟨ha, ht⟩ | ⟨hc, m, hm, ht⟩ | ⟨hc, ht⟩ |
    ⟨ha, hpend, ht⟩ | ⟨hc, p, m, hpend, hm, ht⟩ | ⟨hc, p, hpend, ht⟩ <;> rw [ht]
  case inl =>
    have hp := State.phase_of_arity_zero hs ha
    refine .of_silent ?_ rfl ?_
    · rw [Reference.phaseAfter_of_data hb, hp]; rfl
    · exact Reference.emitted_of_data_of_not_last hb (.inr (.inl hp)) _ _
  case inr.inl =>
    have hp := State.phase_of_arity_one hs (arity_of_clsByte hc)
    refine .of_emit ?_ rfl ?_
    · rw [Reference.phaseAfter_of_data hb, hp, hs, cls, hc]
      exact State.phase_of_arity_one hs (arity_of_clsByte hc)
    · rw [hp, hs, Reference.emitted_of_data_wait1 hb, if_pos hc, hm]
  case inr.inr.inl =>
    have hp := State.phase_of_arity_one hs (arity_of_clsByte hc)
    refine .of_emit ?_ rfl ?_
    · rw [Reference.phaseAfter_of_data hb, hp, hs, cls, hc]; rfl
    · rw [hp, hs, Reference.emitted_of_data_wait1 hb, hc]; rfl
  case inr.inr.inr.inl =>
    have hp := State.phase_of_arity_two_of_none hs ha hpend
    refine .of_silent ?_ rfl ?_
    · rw [Reference.phaseAfter_of_data hb, hp]
      exact State.phase_of_arity_two_of_some hs ha rfl
    · exact Reference.emitted_of_data_of_not_last hb (.inr (.inr hp)) _ _
  case inr.inr.inr.inr.inl =>
    have hp := State.phase_of_arity_two_of_some hs (arity_of_clsByte hc) hpend
    refine .of_emit ?_ rfl ?_
    · rw [Reference.phaseAfter_of_data hb, hp, hs, cls, hc]
      exact State.phase_of_arity_two_of_none hs (arity_of_clsByte hc) rfl
    · rw [hp, hs, hpend, Reference.emitted_of_data_wait2b hb, if_pos hc, hm]
  case inr.inr.inr.inr.inr =>
    have hp := State.phase_of_arity_two_of_some hs (arity_of_clsByte hc) hpend
    refine .of_emit ?_ rfl ?_
    · rw [Reference.phaseAfter_of_data hb, hp, hs, cls, hc]; rfl
    · rw [hp, hs, hpend, Reference.emitted_of_data_wait2b hb, hc, eq_F2_of_clsByte hc]; rfl

/-- Every byte's step is the table's. -/
theorem FollowsTable.feed (b : Byte) (s : State) : FollowsTable b s (Reference.feed b s) := by
  obtain hdata | hlegal | rfl | hrt := byte_cases b
  · rw [Reference.feed_of_data hdata]
    cases hs : s.rs with
    | none => rw [Reference.feedData_of_none hs]; exact .data_of_none hdata hs
    | some r =>
      rw [Reference.feedData_of_some hs, ← dataBits_eq_setWidth]
      exact .data_of_some hdata hs
  · rw [Reference.feed_of_legalRs hlegal]
    exact .of_silent (Reference.phaseAfter_of_legalRs hlegal _ _ s).symm rfl
      (Reference.emitted_of_legalRs hlegal _ _ _)
  · exact .of_emit rfl rfl rfl
  · rw [Reference.feed_of_realTime hrt]
    exact .of_emit (Reference.phaseAfter_of_realTime hrt _ _).symm rfl
      (Reference.emitted_of_realTime hrt _ _ _)

/-- Settles O19: the meaning of a byte is the pseudocode's, and the pseudocode follows the table. -/
theorem feedFollowsPseudocodeAndTable : Obligations.FeedFollowsPseudocodeAndTable := by
  unfold Obligations.FeedFollowsPseudocodeAndTable
  intro b s
  exact ⟨_, exec_decodeRx_eq_feed b s, rfl, FollowsTable.feed b s⟩

end Sys2Proof.Machine
end

section
/-! The data byte (spec/41_decoder_data.md R90 to R101): what it does under each class of running
status, the Message it completes for each channel-voice status, and the full form of a Message of two
data bytes. -/

namespace Sys2Proof.Machine

/-! A channel-voice status byte: its command nibble, its channel, and the Message its data makes. -/

/-- The upper nibble of a status byte is its command's, whatever its channel (R51). -/
theorem status_and_F0 {base : Byte} (h : base &&& 0x0F#8 = 0x00#8) (n : BitVec 4) :
    (base ||| n.setWidth 8) &&& 0xF0#8 = base := by
  have hn : n.setWidth 8 &&& 0xF0#8 = 0x00#8 := by revert n; decide
  have hbase : base &&& 0xF0#8 = base := by revert base; decide
  rw [BitVec.and_or_distrib_right, hn, hbase, BitVec.or_zero]

/-- The channel of a status byte is the one it was made with (R51). -/
theorem channelOf_status {base : Byte} (h : base &&& 0x0F#8 = 0x00#8) (n : BitVec 4) :
    channelOf (base ||| n.setWidth 8) = n.toNat := by
  have hn : (n.setWidth 8 &&& 0x0F#8).toNat = n.toNat := by revert n; decide
  rw [channelOf, BitVec.and_or_distrib_right, h, BitVec.zero_or, hn]

theorem build2_noteOff (n : BitVec 4) (p d : Data) :
    build2 (0x80#8 ||| n.setWidth 8) p d = some (.noteOff n.toNat p.toNat d.toNat) := by
  rw [build2, status_and_F0 rfl, channelOf_status rfl]
  rfl

theorem build2_noteOn (n : BitVec 4) (p d : Data) :
    build2 (0x90#8 ||| n.setWidth 8) p d = some (.noteOn n.toNat p.toNat d.toNat) := by
  rw [build2, status_and_F0 rfl, channelOf_status rfl]
  rfl

theorem build2_polyAftertouch (n : BitVec 4) (p d : Data) :
    build2 (0xA0#8 ||| n.setWidth 8) p d = some (.polyAftertouch n.toNat p.toNat d.toNat) := by
  rw [build2, status_and_F0 rfl, channelOf_status rfl]
  rfl

theorem build2_controlChange (n : BitVec 4) (p d : Data) :
    build2 (0xB0#8 ||| n.setWidth 8) p d = some (.controlChange n.toNat p.toNat d.toNat) := by
  rw [build2, status_and_F0 rfl, channelOf_status rfl]
  rfl

theorem build2_pitchBend (n : BitVec 4) (p d : Data) :
    build2 (0xE0#8 ||| n.setWidth 8) p d = some (.pitchBend n.toNat (pitchBendValue p d)) := by
  rw [build2, status_and_F0 rfl, channelOf_status rfl]
  rfl

theorem build1_programChange (n : BitVec 4) (d : Data) :
    build1 (0xC0#8 ||| n.setWidth 8) d = some (.programChange n.toNat d.toNat) := by
  rw [build1, status_and_F0 rfl, channelOf_status rfl]
  rfl

theorem build1_channelAftertouch (n : BitVec 4) (d : Data) :
    build1 (0xD0#8 ||| n.setWidth 8) d = some (.channelAftertouch n.toNat d.toNat) := by
  rw [build1, status_and_F0 rfl, channelOf_status rfl]
  rfl

/-- A status with a Message of one data byte is of class CV2 (R99). -/
theorem clsByte_of_build1 {r : Byte} {d : Data} {m : Message} (h : build1 r d = some m) :
    clsByte r = .cv2 := by
  have hsome := build1_isSome r d
  rw [h] at hsome
  exact of_decide_eq_true hsome.symm

/-- A status with a Message of two data bytes is of class CV3 (R98). -/
theorem clsByte_of_build2 {r : Byte} {p d : Data} {m : Message} (h : build2 r p d = some m) :
    clsByte r = .cv3 := by
  have hsome := build2_isSome r p d
  rw [h] at hsome
  exact of_decide_eq_true hsome.symm

/-! FEED_DATA by the class of the running status. -/

/-- FEED_DATA under running status `r` (R90). -/
theorem exec_feedData_of_some {s : State} {r : Byte} (hs : s.rs = some r) (v : Data) :
    exec (.feedData v) s = .next (s.feedDataUnder r v) := by
  rw [exec, execFeedData, hs]

/-- Under an unclassified status (R92). -/
theorem exec_feedData_of_uncl {s : State} {r : Byte} (hs : s.rs = some r) (hr : clsByte r = .uncl)
    (v : Data) : exec (.feedData v) s = .next s := by
  rw [exec_feedData_of_some hs, State.feedDataUnder, hr]

/-- Under a CV2 status (R93). -/
theorem exec_feedData_of_build1 {s : State} {r : Byte} {v : Data} {m : Message}
    (hs : s.rs = some r) (hm : build1 r v = some m) : exec (.feedData v) s = .next (s.emit m) := by
  rw [exec_feedData_of_some hs, State.feedDataUnder, clsByte_of_build1 hm, hm, State.emitBuilt]

/-- Under an SC1 status (R94). -/
theorem exec_feedData_of_sc1 {s : State} {r : Byte} (hs : s.rs = some r) (hr : clsByte r = .sc1)
    (v : Data) :
    exec (.feedData v) s = .next (s.emit (.systemCommon r [v.toNat])).endCommon := by
  rw [exec_feedData_of_some hs, State.feedDataUnder, hr]

/-- The first data byte under a CV3 or SC2 status (R95). -/
theorem exec_feedData_first {s : State} {r : Byte} (hs : s.rs = some r)
    (hr : clsByte r = .cv3 ∨ clsByte r = .sc2) (hp : s.pend = none) (v : Data) :
    exec (.feedData v) s = .next (s.hold v) := by
  rw [exec_feedData_of_some hs, State.feedDataUnder, hp]
  obtain hr | hr := hr <;> rw [hr]

/-- The second data byte under a CV3 status (R96). -/
theorem exec_feedData_of_build2 {s : State} {r : Byte} {p v : Data} {m : Message}
    (hs : s.rs = some r) (hp : s.pend = some p) (hm : build2 r p v = some m) :
    exec (.feedData v) s = .next (s.emit m).release := by
  rw [exec_feedData_of_some hs, State.feedDataUnder, hp, clsByte_of_build2 hm]
  dsimp only
  rw [hm, State.emitBuilt]

/-- The second data byte under an SC2 status (R97). -/
theorem exec_feedData_of_sc2 {s : State} {r : Byte} {p : Data} (hs : s.rs = some r)
    (hr : clsByte r = .sc2) (hp : s.pend = some p) (v : Data) :
    exec (.feedData v) s =
      .next (s.emit (.systemCommon r [p.toNat, v.toNat])).release.endCommon := by
  rw [exec_feedData_of_some hs, State.feedDataUnder, hp, hr]

/-! The full form of a channel-voice Message of two data bytes. -/

/-- A run whose first byte is a data byte goes on from that byte's step. -/
theorem feedAll_data {v : Data} {bs : List Byte} {s u : State}
    (h : exec (.feedData v) { s with inbox := bs.map Transfer.rx, rxCount := s.rxCount + 1 } =
      .next u) : feedAll (v.setWidth 8 :: bs) s = feedAll bs u := by
  refine run_cons_of_next (t := .rx (v.setWidth 8)) ?_
  rw [decode, decodeRx_data]
  exact h

/-- A run whose first byte is a status byte that `RS` can hold goes on from that status. -/
theorem feedAll_of_legalRs {b : Byte} (hb : legalRs b) (bs : List Byte) (s : State) :
    feedAll (b :: bs) s = feedAll bs
      (State.setStatus b { s with inbox := bs.map Transfer.rx, rxCount := s.rxCount + 1 }) :=
  run_cons_of_next (t := .rx b) (exec_decodeRx_of_legalRs hb _)

/-- From every state a CV3 status byte and its two data bytes emit the status's Message on the last
byte, and leave the status standing (R71, R95, R96). -/
theorem feedAll_of_build2 {b : Byte} {p d : Data} {m : Message} (hm : build2 b p d = some m)
    (s : State) :
    feedAll [b, p.setWidth 8, d.setWidth 8] s = .next { s with
      rs := some b, pend := none, exp := expOf (some b), inbox := [], rxCount := s.rxCount + 3
      msgOut := s.msgOut ++ [(s.rxCount + 3, m)] } := by
  have hcv3 : clsByte b = .cv3 := clsByte_of_build2 hm
  have hlegal : legalRs b := legalRs_of_voiceByte (voiceByte_of_clsByte (.inr hcv3))
  rw [feedAll_of_legalRs hlegal, feedAll_data (exec_feedData_first rfl (.inl hcv3) rfl p),
    feedAll_data (exec_feedData_of_build2 rfl rfl hm)]
  rfl

/-- That run emits exactly the status's Message. -/
theorem newMessages_of_build2 {b : Byte} {p d : Data} {m : Message} (hm : build2 b p d = some m)
    (s : State) :
    ∃ t, feedAll [b, p.setWidth 8, d.setWidth 8] s = .next t ∧ newMessages s t = [m] :=
  ⟨_, feedAll_of_build2 hm s, newMessages_of_msgOut (es := [(s.rxCount + 3, m)]) rfl⟩

/-! The obligations. -/

/-- Settles O27: the run emits the builder's PitchBend, whose value is the sum of its two data
values, the second times 128. -/
theorem pitchBendComposition : Obligations.PitchBendComposition := by
  unfold Obligations.PitchBendComposition
  intro n d1 d2 s
  obtain ⟨t, hrun, hmsgs⟩ := newMessages_of_build2 (build2_pitchBend n d1 d2) s
  have hsum := pitchBendValue_eq d1 d2
  have h1 := d1.isLt
  have h2 := d2.isLt
  exact ⟨t, _, hrun, hmsgs, rfl, by omega, by omega, by omega⟩

/-- Settles O21: no running status, or one of class UNCL. -/
theorem dataByteDropped : Obligations.DataByteDropped := by
  unfold Obligations.DataByteDropped
  intro v s
  exact ⟨fun hs => exec_feedData_of_none hs v,
    fun b hs hb => exec_feedData_of_uncl hs (clsByte_of_unclassified hb) v⟩

/-- Settles O22, by the Message each of the two statuses builds. -/
theorem oneDataByteChannelMessage : Obligations.OneDataByteChannelMessage := by
  unfold Obligations.OneDataByteChannelMessage
  intro n v s
  exact ⟨fun hs => exec_feedData_of_build1 hs (build1_programChange n v),
    fun hs => exec_feedData_of_build1 hs (build1_channelAftertouch n v)⟩

/-- Settles O23: both statuses are of class SC1, and the step leaves no running status for the
second data byte. -/
theorem systemCommonOneByteCompletes : Obligations.SystemCommonOneByteCompletes := by
  unfold Obligations.SystemCommonOneByteCompletes
  intro b v w s hb hs
  have hsc1 : clsByte b = .sc1 := by obtain rfl | rfl := hb <;> rfl
  exact ⟨_, exec_feedData_of_sc1 hs hsc1 v, rfl, exec_feedData_of_none rfl w⟩

/-- Settles O24: the step of the first data byte only puts it in `PEND`. -/
theorem firstDataByteHeld : Obligations.FirstDataByteHeld := by
  unfold Obligations.FirstDataByteHeld
  intro b v s hs hb hp
  exact exec_feedData_first hs hb hp v

/-- Settles O25, by the Message each of the five statuses builds. -/
theorem twoDataByteChannelMessage : Obligations.TwoDataByteChannelMessage := by
  unfold Obligations.TwoDataByteChannelMessage
  intro n p d s hp
  exact ⟨fun hs => exec_feedData_of_build2 hs hp (build2_noteOff n p d),
    fun hs => exec_feedData_of_build2 hs hp (build2_noteOn n p d),
    fun hs => exec_feedData_of_build2 hs hp (build2_polyAftertouch n p d),
    fun hs => exec_feedData_of_build2 hs hp (build2_controlChange n p d),
    fun hs => exec_feedData_of_build2 hs hp (build2_pitchBend n p d)⟩

/-- Settles O26: 0xF2 is the status of class SC2. -/
theorem songPositionCompletes : Obligations.SongPositionCompletes := by
  unfold Obligations.SongPositionCompletes
  intro p d s hs hp
  exact exec_feedData_of_sc2 hs rfl hp d

/-- Settles O28: the builder keeps a NoteOn of velocity 0, in the full form and under running
status. -/
theorem velocityZeroStaysNoteOn : Obligations.VelocityZeroStaysNoteOn := by
  unfold Obligations.VelocityZeroStaysNoteOn
  intro n key s
  have hm := build2_noteOn n key 0#7
  exact ⟨newMessages_of_build2 hm s, fun hs hp => exec_feedData_of_build2 hs hp hm⟩

end Sys2Proof.Machine
end

section
/-! The wire form of a channel-voice Message (spec/30_encoding.md R59, spec/41_decoder_data.md R98
to R100, spec/42_encoder.md R110 to R117): the status byte and the data bytes that the encoder puts
out are the ones from which the decoder's builders make the masked Message. -/

namespace Sys2Proof.Machine

/-! The encoder's masks as numbers (R122). -/

/-- The status byte of a channel-voice operation, its channel masked as a number. -/
theorem voiceStatus_eq_or (base : Byte) (ch : Nat) :
    voiceStatus base ch = base ||| BitVec.ofNat 8 (ch % 16) := by
  rw [voiceStatus_eq]
  congr 1
  apply BitVec.eq_of_toNat_eq
  simp

/-- The status byte of a channel-voice operation as a sum: the channel fills the lower nibble. -/
theorem voiceStatus_eq_add {base : Byte} (h : base &&& 0x0F#8 = 0x00#8) (ch : Nat) :
    voiceStatus base ch = BitVec.ofNat 8 (base.toNat + ch % 16) := by
  have hch : BitVec.ofNat 8 ch &&& 0x0F#8 = BitVec.ofNat 8 (ch % 16) := by
    have h0 := voiceStatus_eq_or 0x00#8 ch
    rwa [voiceStatus, BitVec.zero_or, BitVec.zero_or] at h0
  have hdisjoint : base &&& (BitVec.ofNat 8 ch &&& 0x0F#8) = 0x00#8 := by
    rw [BitVec.and_comm (BitVec.ofNat 8 ch), ← BitVec.and_assoc, h, BitVec.zero_and]
  rw [voiceStatus, ← BitVec.add_eq_or_of_and_eq_zero _ _ hdisjoint, hch, BitVec.ofNat_add,
    BitVec.ofNat_toNat, BitVec.setWidth_eq]

/-- Masking a data field twice is masking it once. -/
theorem dataByte_mod (v : Nat) : dataByte (v % 128) = dataByte v := by
  rw [dataByte_eq_mod, dataByte_eq_mod, Nat.mod_mod]

/-- The data bytes of PitchBend, the upper one by division (R117). -/
theorem pitchBendBytes_eq (v : Nat) : pitchBendBytes v = [dataByte v, dataByte (v / 128)] := by
  rw [pitchBendBytes, Nat.shiftRight_eq_div_pow]

/-! The forms. -/

/-- Status byte `st` with data bytes `ds` is the wire form of the channel-voice Message `m`: a
builder of the decoder makes `m` of them (R98, R99). -/
inductive VoiceForm (st : Byte) : List Byte → Message → Prop where
  | one {d : Data} {m : Message} (h : build1 st d = some m) : VoiceForm st [d.setWidth 8] m
  | two {p d : Data} {m : Message} (h : build2 st p d = some m) :
      VoiceForm st [p.setWidth 8, d.setWidth 8] m

section
variable {st : Byte} {ds : List Byte} {m : Message}

/-- The status byte of a form is a channel-voice one. -/
theorem VoiceForm.voiceByte_status (h : VoiceForm st ds m) : voiceByte st := by
  cases h with
  | one hm => exact voiceByte_of_clsByte (.inl (clsByte_of_build1 hm))
  | two hm => exact voiceByte_of_clsByte (.inr (clsByte_of_build2 hm))

/-- A form has as many data bytes as its status byte asks for (R57). -/
theorem VoiceForm.length_eq (h : VoiceForm st ds m) : ds.length = arity (some st) := by
  cases h with
  | one hm => exact (arity_of_clsByte (clsByte_of_build1 hm)).symm
  | two hm => exact (arity_of_clsByte (clsByte_of_build2 hm)).symm

/-- A form has one or two data bytes. -/
theorem VoiceForm.length_bounds (h : VoiceForm st ds m) : 1 ≤ ds.length ∧ ds.length ≤ 2 := by
  cases h <;> simp

end

/-- A status byte is its command with its channel beside it. -/
theorem command_or_channelOf (s : Byte) : s &&& 0xF0#8 ||| wireByte (channelOf s) = s := by
  revert s; decide

/-- A data value as a byte of a wire form. -/
theorem wireByte_toNat (d : Data) : wireByte d.toNat = d.setWidth 8 :=
  BitVec.ofNat_toNat 8 d

/-- The two data bytes of a PitchBend's wire form are the data values it was composed of. -/
theorem wireByte_pitchBendValue (p d : Data) :
    wireByte (pitchBendValue p d &&& 0x7F) = p.setWidth 8 ∧
      wireByte ((pitchBendValue p d >>> 7) &&& 0x7F) = d.setWidth 8 := by
  have hp := p.isLt
  have hd := d.isLt
  have hlow : pitchBendValue p d &&& 0x7F = p.toNat := by
    rw [pitchBendValue_eq, Nat.and_two_pow_sub_one_eq_mod _ 7]; omega
  have hhigh : (pitchBendValue p d >>> 7) &&& 0x7F = d.toNat := by
    rw [pitchBendValue_eq, Nat.and_two_pow_sub_one_eq_mod _ 7, Nat.shiftRight_eq_div_pow]; omega
  rw [hlow, hhigh]
  exact ⟨wireByte_toNat p, wireByte_toNat d⟩

/-- The builder of R98 undone: the wire form of its Message. -/
theorem wireForm_of_build2 {s : Byte} {p d : Data} {m : Message} (h : build2 s p d = some m) :
    wireForm m = [s, p.setWidth 8, d.setWidth 8] := by
  have hs := command_or_channelOf s
  obtain ⟨hlow, hhigh⟩ := wireByte_pitchBendValue p d
  unfold build2 at h
  split at h <;> cases h <;> rename_i hbase <;> rw [hbase] at hs <;>
    simp only [wireForm, hs, wireByte_toNat, hlow, hhigh]

/-- The builder of R99 undone: the wire form of its Message. -/
theorem wireForm_of_build1 {s : Byte} {d : Data} {m : Message} (h : build1 s d = some m) :
    wireForm m = [s, d.setWidth 8] := by
  have hs := command_or_channelOf s
  unfold build1 at h
  split at h <;> cases h <;> rename_i hbase <;> rw [hbase] at hs <;>
    simp only [wireForm, hs, wireByte_toNat]

/-- A form of `m` is the wire form of R59. -/
theorem VoiceForm.wireForm_eq {st : Byte} {ds : List Byte} {m : Message} (h : VoiceForm st ds m) :
    wireForm m = st :: ds := by
  cases h with
  | one hm => exact wireForm_of_build1 hm
  | two hm => exact wireForm_of_build2 hm

/-! What the encoder puts out is a form of the masked Message. -/

/-- The bytes of an operation with one data field, where R99 builds from the masked fields. -/
theorem VoiceForm.of_build1 {base : Byte} {ch x : Nat} {m : Message}
    (h : build1 (base ||| (BitVec.ofNat 4 ch).setWidth 8) (BitVec.ofNat 7 x) = some m) :
    VoiceForm (voiceStatus base ch) [dataByte x] m := by
  rw [voiceStatus_eq, dataByte_eq]
  exact .one h

/-- The bytes of an operation with two data fields, where R98 builds from the masked fields. -/
theorem VoiceForm.of_build2 {base : Byte} {ch x y : Nat} {m : Message}
    (h : build2 (base ||| (BitVec.ofNat 4 ch).setWidth 8) (BitVec.ofNat 7 x) (BitVec.ofNat 7 y) =
      some m) : VoiceForm (voiceStatus base ch) [dataByte x, dataByte y] m := by
  rw [voiceStatus_eq, dataByte_eq, dataByte_eq]
  exact .two h

/-- The two 7-bit halves of a PitchBend value compose to its low 14 bits (R100, R117). -/
theorem pitchBendValue_ofNat (v : Nat) :
    pitchBendValue (BitVec.ofNat 7 v) (BitVec.ofNat 7 (v / 128)) = v % 16384 := by
  rw [pitchBendValue_eq, BitVec.toNat_ofNat, BitVec.toNat_ofNat]
  omega

/-- Every channel-voice Message is sent by `cv` as a form of the masked Message (R111 to R117,
R122). -/
theorem exists_voiceForm {m : Message} (h : isVoiceMessage m = true) :
    ∃ st ds, VoiceForm st ds (masked m) ∧
      ∀ s, exec (decodeMessage m) s = .next (s.sendVoice st ds) := by
  cases m with
  | noteOff ch key velocity =>
    exact ⟨_, _, .of_build2 (build2_noteOff (.ofNat 4 ch) (.ofNat 7 key) (.ofNat 7 velocity)),
      fun _ => rfl⟩
  | noteOn ch key velocity =>
    exact ⟨_, _, .of_build2 (build2_noteOn (.ofNat 4 ch) (.ofNat 7 key) (.ofNat 7 velocity)),
      fun _ => rfl⟩
  | polyAftertouch ch key value =>
    exact ⟨_, _, .of_build2 (build2_polyAftertouch (.ofNat 4 ch) (.ofNat 7 key) (.ofNat 7 value)),
      fun _ => rfl⟩
  | controlChange ch controller value =>
    exact ⟨_, _,
      .of_build2 (build2_controlChange (.ofNat 4 ch) (.ofNat 7 controller) (.ofNat 7 value)),
      fun _ => rfl⟩
  | programChange ch program =>
    exact ⟨_, _, .of_build1 (build1_programChange (.ofNat 4 ch) (.ofNat 7 program)), fun _ => rfl⟩
  | channelAftertouch ch value =>
    exact ⟨_, _, .of_build1 (build1_channelAftertouch (.ofNat 4 ch) (.ofNat 7 value)), fun _ => rfl⟩
  | pitchBend ch value =>
    have hm := build2_pitchBend (.ofNat 4 ch) (.ofNat 7 value) (.ofNat 7 (value / 128))
    rw [pitchBendValue_ofNat] at hm
    refine ⟨_, _, .of_build2 hm, fun _ => ?_⟩
    rw [← pitchBendBytes_eq]
    rfl
  | systemRealTime code => cases h
  | systemCommon code data => cases h

/-- A well-formed Message is its own masked form (R122). -/
theorem masked_of_wellFormed {m : Message} (h : m.wellFormed = true) : masked m = m := by
  cases m with
  | systemRealTime code => rfl
  | systemCommon code data =>
    have hdata : ∀ v ∈ data, v ≤ 127 := by
      simpa [Message.wellFormed, dataOk] using (Bool.and_eq_true_iff.mp h).2
    have hmap : data.map (· % 128) = data.map id :=
      List.map_congr_left fun v hv => Nat.mod_eq_of_lt (Nat.lt_succ_of_le (hdata v hv))
    rw [masked, hmap, List.map_id]
  | _ =>
    simp only [Message.wellFormed, channelOk, dataOk, Bool.and_eq_true, decide_eq_true_eq] at h
    simp [masked]
    omega

end Sys2Proof.Machine
end

section
/-! The encoder's operations (spec/42_encoder.md R110 to R121, R124, R125): the pseudocode, the
exact next state of each operation, which Messages are refused, how `TXRS` changes, and the lengths
put out. -/

namespace Sys2Proof.Machine

/-! The channel-voice operations (R110, R121). -/

/-- The pseudocode's mask of a data field is the encoder's (R110, R122). -/
theorem Reference.low7_eq_dataByte : Reference.low7 = dataByte :=
  funext fun v => (dataByte_eq_mod v).symm

/-- `cv` of the pseudocode is the shared operation `sendVoice`. -/
theorem Reference.cv_eq_sendVoice (base : Byte) (ch : Nat) (ds : List Nat) (s : State) :
    Reference.cv base ch ds s = s.sendVoice (voiceStatus base ch) (ds.map dataByte) := by
  rw [Reference.cv, ← voiceStatus_eq_or, Reference.low7_eq_dataByte]
  obtain ⟨henc, htxrs, hsend⟩ | ⟨henc, htxrs, hsend⟩ | ⟨henc, hsend⟩ :=
    State.sendVoice_cases (voiceStatus base ch) (ds.map dataByte) s <;> rw [hsend]
  · rw [if_pos ⟨henc, htxrs⟩]; rfl
  · rw [if_neg fun h => htxrs h.2, if_pos henc]
    simp [Reference.out]
  · rw [henc, if_neg (by simp), if_neg Bool.false_ne_true]
    simp [Reference.out, State.out]

/-- Settles O43: `cv` is `sendVoice`, so the seven channel-voice operations agree; the other two
agree by cases on whether the Message is constructible. -/
theorem encodeFollowsPseudocode : Obligations.EncodeFollowsPseudocode := by
  unfold Obligations.EncodeFollowsPseudocode
  intro m s
  cases m with
  | systemRealTime code => rfl
  | systemCommon code data =>
    by_cases h : constructible (.systemCommon code data) = true
    · rw [decodeMessage, exec_encSysCommon_of_constructible s h, Reference.encode, if_pos h,
        Reference.low7_eq_dataByte, State.setTxrs]
      cases henc : s.cfg.encRunningStatus <;> simp [Reference.out, State.out]
    · rw [decodeMessage, exec_encSysCommon_refused s h, Reference.encode, if_neg h]
  | pitchBend ch value =>
    have hcv := Reference.cv_eq_sendVoice 0xE0#8 ch [value % 128, value / 128 % 128] s
    rw [List.map_cons, List.map_cons, dataByte_mod, dataByte_mod, List.map_nil,
      ← pitchBendBytes_eq] at hcv
    exact congrArg Host.Outcome.next hcv.symm
  | _ =>
    change _ = Host.Outcome.next (Reference.cv _ _ _ s)
    rw [Reference.cv_eq_sendVoice]
    rfl

/-- An operation that `cv` carries out, by the parameter and `TXRS`. -/
theorem voiceOperation_of_sendVoice {i : Instr} {base : Byte} {ch : Nat} {ds : List Byte}
    (hbase : base &&& 0x0F#8 = 0x00#8)
    (h : ∀ s, exec i s = .next (s.sendVoice (voiceStatus base ch) ds)) :
    VoiceOperation i (BitVec.ofNat 8 (base.toNat + ch % 16)) ds := by
  rw [← voiceStatus_eq_add hbase]
  intro s
  rw [h]
  obtain ⟨henc, htxrs, hsend⟩ | ⟨henc, htxrs, hsend⟩ | ⟨henc, hsend⟩ :=
    State.sendVoice_cases (voiceStatus base ch) ds s <;> rw [hsend] <;>
    simp [State.out, *]

/-- Settles O44: each of the seven operations is `cv` with its command nibble and masked fields. -/
theorem channelVoiceOperations : Obligations.ChannelVoiceOperations := by
  unfold Obligations.ChannelVoiceOperations
  intro ch x y
  simp only [← dataByte_eq_mod]
  refine ⟨voiceOperation_of_sendVoice (base := 0x80#8) rfl fun _ => rfl,
    voiceOperation_of_sendVoice (base := 0x90#8) rfl fun _ => rfl,
    voiceOperation_of_sendVoice (base := 0xA0#8) rfl fun _ => rfl,
    voiceOperation_of_sendVoice (base := 0xB0#8) rfl fun _ => rfl,
    voiceOperation_of_sendVoice (base := 0xC0#8) rfl fun _ => rfl,
    voiceOperation_of_sendVoice (base := 0xD0#8) rfl fun _ => rfl,
    voiceOperation_of_sendVoice (base := 0xE0#8) rfl fun _ => ?pitchBend⟩
  case pitchBend => rw [← pitchBendBytes_eq]; rfl

/-! The System operations, and which Messages are refused (R118 to R120). -/

/-- The System Common Messages that the encoder gives a meaning (R120). -/
theorem constructible_systemCommon_iff {code : Byte} {data : List Nat} :
    constructible (.systemCommon code data) = true ↔
      (code = 0xF1#8 ∨ code = 0xF2#8 ∨ code = 0xF3#8 ∨ code = 0xF6#8) ∧
        data.length = arity (some code) := by
  simp [constructible, commonCode, or_assoc]

/-- The real-time Messages that the encoder gives a meaning (R120). -/
theorem constructible_systemRealTime_iff {code : Byte} :
    constructible (.systemRealTime code) = true ↔ 0xF8#8 ≤ code := by
  simp [constructible]

/-- Settles O45: a code and a count in range make the Message constructible, any other does not. -/
theorem systemCommonOperation : Obligations.SystemCommonOperation := by
  unfold Obligations.SystemCommonOperation
  intro code data s
  refine ⟨fun hcode hlen => ?sent, fun hbad => ?refused⟩
  case sent =>
    rw [exec_encSysCommon_of_constructible s (constructible_systemCommon_iff.mpr ⟨hcode, hlen⟩),
      State.setTxrs_eq]
    simp only [State.out, ← dataByte_eq_mod]
  case refused =>
    refine exec_encSysCommon_refused s fun h => ?_
    obtain ⟨hcode, hlen⟩ := constructible_systemCommon_iff.mp h
    tauto

/-- Settles O46: the real-time codes are 0xF8 and above. -/
theorem realTimeOperation : Obligations.RealTimeOperation := by
  unfold Obligations.RealTimeOperation
  intro code s
  refine ⟨fun hcode => ?sent, fun hcode => ?refused⟩
  case sent => exact exec_encRt_of_constructible s (constructible_systemRealTime_iff.mpr hcode)
  case refused =>
    exact exec_encRt_refused s fun h =>
      BitVec.not_lt.mpr (constructible_systemRealTime_iff.mp h) hcode

/-- A Message with its code and count in range, where it has them, is constructible (R120). -/
theorem constructible_of_codes {m : Message} (hrt : ∀ c, m = .systemRealTime c → 0xF8#8 ≤ c)
    (hsc : ∀ c ds, m = .systemCommon c ds →
      (c = 0xF1#8 ∨ c = 0xF2#8 ∨ c = 0xF3#8 ∨ c = 0xF6#8) ∧ ds.length = arity (some c)) :
    constructible m = true := by
  cases m with
  | systemRealTime c => exact constructible_systemRealTime_iff.mpr (hrt c rfl)
  | systemCommon c ds => exact constructible_systemCommon_iff.mpr (hsc c ds rfl)
  | _ => rfl

/-- Settles O47: the two operations refuse on R120's grounds; any other Message is constructible,
and its encode completes and leaves the decoder's side alone. -/
theorem refusedExactlyWhenNotConstructible : Obligations.RefusedExactlyWhenNotConstructible := by
  unfold Obligations.RefusedExactlyWhenNotConstructible
  intro m s
  refine ⟨?refused, fun hrt hsc => ?completes⟩
  case refused =>
    rintro (⟨c, rfl, hc⟩ | ⟨c, ds, rfl, hbad⟩)
    · exact (realTimeOperation c s).2 hc
    · exact (systemCommonOperation c ds s).2 hbad
  case completes =>
    have hm := constructible_of_codes hrt hsc
    obtain ⟨t, ht, -⟩ := exec_decodeMessage_withDecoder hm s
    exact ⟨t, ht, decoderUntouched_of_encode hm ht⟩

/-! How `TXRS` changes (R124). -/

/-- An instruction is what its host move asks for (R31, R33, R35, R110). -/
theorem decode_encode (i : Instr) : decode (encode i) = i := by
  cases i with
  | feedData v => exact decodeRx_data v
  | feedNoteOffSt n | feedNoteOnSt n | feedPolyAtSt n | feedCcSt n | feedPcSt n | feedCatSt n
  | feedPbSt n => revert n; decide
  | feedScUndefSt u => revert u; decide
  | feedRt c => revert c; decide
  | _ => rfl

/-- `if ENC_RS: TXRS <- v` changes `TXRS` only where it is present, and to `v`. -/
theorem State.txrs_change_of_setTxrs {v : Option Byte} {s : State}
    (h : (s.setTxrs v).txrs ≠ s.txrs) :
    s.cfg.encRunningStatus = true ∧ (s.setTxrs v).txrs = v := by
  rw [State.setTxrs_txrs] at h ⊢
  have henc := (ite_ne_right_iff.mp h).1
  exact ⟨henc, if_pos henc⟩

/-- A channel-voice operation changes `TXRS` only to a status byte that it puts out. -/
theorem txrs_change_of_voice {m : Message} {s t : State} (hm : isVoiceMessage m = true)
    (h : exec (decodeMessage m) s = .next t) (hne : t.txrs ≠ s.txrs) :
    s.cfg.encRunningStatus = true ∧
      ∃ b, voiceByte b ∧ t.txrs = some b ∧ ∃ ds, t.txOut = s.txOut ++ b :: ds := by
  obtain ⟨st, ds, hform, hexec⟩ := exists_voiceForm hm
  obtain rfl := Host.Outcome.next.inj ((hexec s).symm.trans h)
  obtain ⟨-, -, hsend⟩ | ⟨henc, -, hsend⟩ | ⟨-, hsend⟩ := State.sendVoice_cases st ds s <;>
    rw [hsend] at hne ⊢
  · exact absurd rfl hne
  · exact ⟨henc, st, hform.voiceByte_status, rfl, ds, rfl⟩
  · exact absurd rfl hne

/-- A System Common operation changes `TXRS` only to none. -/
theorem txrs_change_of_systemCommon {code : Byte} {data : List Nat} {s t : State}
    (h : exec (.encSysCommon code data) s = .next t) (hne : t.txrs ≠ s.txrs) :
    s.cfg.encRunningStatus = true ∧ t.txrs = none := by
  by_cases hc : constructible (.systemCommon code data) = true
  · obtain rfl := Host.Outcome.next.inj ((exec_encSysCommon_of_constructible s hc).symm.trans h)
    exact State.txrs_change_of_setTxrs hne
  · cases (exec_encSysCommon_refused s hc).symm.trans h

/-- A real-time operation does not change `TXRS` (R119). -/
theorem txrs_eq_of_realTime {code : Byte} {s t : State} (h : exec (.encRt code) s = .next t) :
    t.txrs = s.txrs := by
  by_cases hc : constructible (.systemRealTime code) = true
  · obtain rfl := Host.Outcome.next.inj ((exec_encRt_of_constructible s hc).symm.trans h)
    rfl
  · cases (exec_encRt_refused s hc).symm.trans h

/-- Settles O49, by the port of the instruction's move: a byte leaves the encoder's side alone, a
Message is sent by one of the three kinds of operation, and a reset clears the part it is for. -/
theorem txrsChanges : Obligations.TxrsChanges := by
  unfold Obligations.TxrsChanges
  intro i s t h hne
  obtain ⟨move, rfl⟩ : ∃ move, i = decode move := ⟨encode i, (decode_encode i).symm⟩
  cases move with
  | rx b =>
    obtain ⟨-, htxrs, -⟩ := encoderUntouched_of_feed h
    exact absurd htxrs hne
  | txmsg m =>
    by_cases hm : isVoiceMessage m = true
    · obtain ⟨henc, b, hb, htxrs, htx⟩ := txrs_change_of_voice hm h hne
      exact ⟨henc, .inl ⟨m, b, rfl, hm, hb, htxrs, htx⟩⟩
    · cases m with
      | systemRealTime code => exact absurd (txrs_eq_of_realTime h) hne
      | systemCommon code data =>
        obtain ⟨henc, htxrs⟩ := txrs_change_of_systemCommon h hne
        exact ⟨henc, .inr (.inl ⟨code, data, rfl, htxrs⟩)⟩
      | _ => exact absurd rfl hm
  | reset target =>
    cases target with
    | decoder => cases h; exact absurd rfl hne
    | encoder =>
      cases h
      obtain ⟨henc, htxrs⟩ := State.txrs_change_of_setTxrs hne
      exact ⟨henc, .inr (.inr ⟨.inl rfl, htxrs⟩)⟩
    | block =>
      cases h
      obtain ⟨henc, htxrs⟩ := State.txrs_change_of_setTxrs (s := s.clearDecoder) hne
      exact ⟨henc, .inr (.inr ⟨.inr rfl, htxrs⟩)⟩

/-! How many bytes are put out (R125). -/

/-- What R121 leaves out, as a condition. -/
theorem State.statusLeftOut_iff {st : Byte} {s : State} :
    s.statusLeftOut st = true ↔ s.cfg.encRunningStatus = true ∧ s.txrs = some st := by
  simp [State.statusLeftOut]

/-- The length of a channel-voice operation's output, with the status byte and without. -/
theorem VoiceForm.length_sent {st : Byte} {ds : List Byte} {m : Message} (h : VoiceForm st ds m)
    (s : State) :
    (if s.statusLeftOut st then ds else st :: ds).length =
      if s.cfg.encRunningStatus = true ∧ s.txrs = some st
        then arity (some st) else 1 + arity (some st) := by
  simp only [State.statusLeftOut_iff, apply_ite List.length, List.length_cons, h.length_eq,
    Nat.add_comm 1]

/-- Settles O50: a channel-voice form has its status byte's count of data bytes, a constructible
System Common Message its code's, and a real-time Message is its code. -/
theorem outputLengths : Obligations.OutputLengths := by
  unfold Obligations.OutputLengths
  intro m s hm
  by_cases hv : isVoiceMessage m = true
  case pos =>
    obtain ⟨st, ds, hform, hsend⟩ := exists_voiceForm hv
    have hlen := hform.length_sent s
    have hcount := hform.length_eq
    have hbounds := hform.length_bounds
    refine ⟨_, _, hsend s, State.sendVoice_txOut st ds s, ?lower, ?upper,
      fun _ => ⟨st, by rw [hform.wireForm_eq]; rfl, hlen⟩, ?systemCommon, ?realTime⟩
    case lower => rw [hlen]; split <;> omega
    case upper => rw [hlen]; split <;> omega
    case systemCommon => rintro code data rfl; cases hv
    case realTime => rintro code rfl; cases hv
  case neg =>
    cases m with
    | systemRealTime code =>
      exact ⟨_, [code], exec_encRt_of_constructible s hm, rfl, le_rfl, by simp,
        fun h => absurd h hv, nofun, fun _ _ => rfl⟩
    | systemCommon code data =>
      obtain ⟨-, hcount⟩ := constructible_systemCommon_iff.mp hm
      have harity := arity_cases code
      have hlen : (code :: data.map dataByte).length = 1 + arity (some code) := by
        rw [List.length_cons, List.length_map, hcount, Nat.add_comm]
      refine ⟨_, code :: data.map dataByte, exec_encSysCommon_of_constructible s hm, by simp,
        by omega, by omega, fun h => absurd h hv, ?_, nofun⟩
      rintro _ _ ⟨⟩
      exact hlen
    | _ => exact absurd rfl hv

end Sys2Proof.Machine
end

section
/-! The round trip (spec/42_encoder.md R123): the bytes of one encode, fed to a decoder that agrees
with the encoder, make it emit the masked Message on the last byte. -/

namespace Sys2Proof.Machine

/-! What the decoder makes of each kind of output. -/

/-- The data bytes of a form, fed where its status stands and no byte is pending, emit its Message
on the last byte, and leave the status standing (R93, R95, R96, R103). -/
theorem VoiceForm.feedAll_of_standing {st : Byte} {ds : List Byte} {m : Message}
    (h : VoiceForm st ds m) {d : State} (hrs : d.rs = some st) (hpend : d.pend = none) :
    ∃ d', feedAll ds d = .next d' ∧ d'.msgOut = d.msgOut ++ [(d.rxCount + ds.length, m)] ∧
      d'.rs = some st ∧ d'.pend = none := by
  obtain ⟨cfg, rs, pend, exp, txrs, inbox, rxCount, msgOut, txOut⟩ := d
  obtain rfl : rs = some st := hrs
  obtain rfl : pend = none := hpend
  cases h with
  | one hm =>
    rw [feedAll_data (exec_feedData_of_build1 rfl hm)]
    exact ⟨_, rfl, rfl, rfl, rfl⟩
  | two hm =>
    rw [feedAll_data (exec_feedData_first rfl (.inl (clsByte_of_build2 hm)) rfl _),
      feedAll_data (exec_feedData_of_build2 rfl rfl hm)]
    exact ⟨_, rfl, rfl, rfl, rfl⟩

/-- A form with its status byte does so from every state (R71). -/
theorem VoiceForm.feedAll_full {st : Byte} {ds : List Byte} {m : Message} (h : VoiceForm st ds m)
    (d : State) :
    ∃ d', feedAll (st :: ds) d = .next d' ∧
      d'.msgOut = d.msgOut ++ [(d.rxCount + (st :: ds).length, m)] ∧
      d'.rs = some st ∧ d'.pend = none := by
  rw [feedAll_of_legalRs (legalRs_of_voiceByte h.voiceByte_status)]
  obtain ⟨d', hrun, hmsg, hregs⟩ := h.feedAll_of_standing (d := State.setStatus st
    { d with inbox := ds.map Transfer.rx, rxCount := d.rxCount + 1 }) rfl rfl
  refine ⟨d', hrun, hmsg.trans ?_, hregs⟩
  simp [Nat.add_assoc, Nat.add_comm 1]

/-- A real-time byte emits its Message from every state, and leaves the registers alone (R87). -/
theorem feedAll_of_realTime {b : Byte} (hb : 0xF8#8 ≤ b) (d : State) :
    ∃ d', feedAll [b] d = .next d' ∧ d'.msgOut = d.msgOut ++ [(d.rxCount + 1, .systemRealTime b)] ∧
      d'.rs = d.rs ∧ d'.pend = d.pend :=
  ⟨_, run_cons_of_next (t := .rx b) (exec_decodeRx_of_realTime hb _), rfl, rfl, rfl⟩

/-- A status of class SC1 and its data byte emit their Message from every state (R94). -/
theorem feedAll_of_sc1 {b : Byte} (hb : legalRs b) (hsc1 : clsByte b = .sc1) (v : Data)
    (d : State) :
    ∃ d', feedAll [b, v.setWidth 8] d = .next d' ∧
      d'.msgOut = d.msgOut ++ [(d.rxCount + 2, .systemCommon b [v.toNat])] := by
  rw [feedAll_of_legalRs hb, feedAll_data (exec_feedData_of_sc1 rfl hsc1 v)]
  exact ⟨_, rfl, rfl⟩

/-- Song Position and its two data bytes emit their Message from every state (R95, R97). -/
theorem feedAll_songPosition (v w : Data) (d : State) :
    ∃ d', feedAll [0xF2#8, v.setWidth 8, w.setWidth 8] d = .next d' ∧
      d'.msgOut = d.msgOut ++ [(d.rxCount + 3, .systemCommon 0xF2#8 [v.toNat, w.toNat])] := by
  rw [feedAll_of_legalRs (by decide), feedAll_data (exec_feedData_first rfl (.inr rfl) rfl v),
    feedAll_data (exec_feedData_of_sc2 rfl rfl rfl w)]
  exact ⟨_, rfl, rfl⟩

/-- The bytes of a constructible System Common Message emit it, masked, from every state (R118). -/
theorem feedAll_systemCommon {code : Byte} {data : List Nat}
    (h : constructible (.systemCommon code data) = true) (d : State) :
    ∃ d', feedAll (code :: data.map dataByte) d = .next d' ∧
      d'.msgOut = d.msgOut ++
        [(d.rxCount + (code :: data.map dataByte).length, masked (.systemCommon code data))] := by
  have hdata : data.map dataByte = data.map fun v => (BitVec.ofNat 7 v).setWidth 8 := by
    simp only [← dataByte_eq]
  rw [hdata]
  obtain hv | ⟨c, hv, -⟩ | ⟨v, hv⟩ | ⟨v, w, hv⟩ | ⟨v, hv⟩ | hv := constructible_cases h <;> cases hv
  · exact feedAll_of_sc1 (by decide) rfl (.ofNat 7 v) d
  · exact feedAll_songPosition (.ofNat 7 v) (.ofNat 7 w) d
  · exact feedAll_of_sc1 (by decide) rfl (.ofNat 7 v) d
  · exact ⟨_, run_cons_of_next (t := .rx 0xF6#8) (exec_decodeRx_tuneReq _), rfl⟩

/-! The round trip. -/

/-- Whatever its registers, a decoder agrees with an encoder whose `TXRS` holds none where it is
present. -/
theorem agree_of_txrs_none {e d : State} (h : e.cfg.encRunningStatus = true → e.txrs = none) :
    Agree e d :=
  fun henc => .inl (h henc)

/-- A decoder agrees with an encoder when it holds the status that `TXRS` takes. -/
theorem agree_sendVoice {st : Byte} {ds : List Byte} {e d : State} (hrs : d.rs = some st)
    (hpend : d.pend = none) : Agree (e.sendVoice st ds) d := by
  intro henc
  rw [State.sendVoice_cfg] at henc
  exact .inr ⟨by rw [hrs, State.sendVoice_txrs, if_pos henc], hpend⟩

/-- The round trip of a form: where its status byte is left out, agreement says that the decoder
still holds it; where it is sent, any decoder takes it. -/
theorem VoiceForm.roundTrip {st : Byte} {ds : List Byte} {m : Message} (h : VoiceForm st ds m)
    {e d : State} (hagree : Agree e d) :
    ∃ bs d', (e.sendVoice st ds).txOut = e.txOut ++ bs ∧ feedAll bs d = .next d' ∧
      d'.msgOut = d.msgOut ++ [(d.rxCount + bs.length, m)] ∧ Agree (e.sendVoice st ds) d' := by
  by_cases hleft : e.statusLeftOut st = true
  case pos =>
    obtain ⟨henc, htxrs⟩ := State.statusLeftOut_iff.mp hleft
    obtain hnone | ⟨hrs, hpend⟩ := hagree henc
    · cases htxrs.symm.trans hnone
    · obtain ⟨d', hrun, hmsg, hrs', hpend'⟩ := h.feedAll_of_standing (hrs.trans htxrs) hpend
      exact ⟨ds, d', by rw [State.sendVoice_txOut, if_pos hleft], hrun, hmsg,
        agree_sendVoice hrs' hpend'⟩
  case neg =>
    obtain ⟨d', hrun, hmsg, hrs', hpend'⟩ := h.feedAll_full d
    exact ⟨st :: ds, d', by rw [State.sendVoice_txOut, if_neg hleft], hrun, hmsg,
      agree_sendVoice hrs' hpend'⟩

/-- Settles O51: a channel-voice Message by its form, a System Common one from every decoder state,
with `TXRS` left none, and a real-time one with every register left alone. -/
theorem roundTrip : Obligations.RoundTrip := by
  unfold Obligations.RoundTrip
  refine ⟨fun m e d hm hagree => ?_, fun c d => agree_of_txrs_none fun _ => State.initial_txrs c⟩
  by_cases hv : isVoiceMessage m = true
  case pos =>
    obtain ⟨st, ds, hform, hsend⟩ := exists_voiceForm hv
    obtain ⟨bs, d', htx, hrun, hmsg, hagree'⟩ := hform.roundTrip hagree
    exact ⟨_, bs, d', hsend e, htx, hrun, hmsg, masked_of_wellFormed, hagree'⟩
  case neg =>
    cases m with
    | systemRealTime code =>
      obtain ⟨d', hrun, hmsg, hrs, hpend⟩ :=
        feedAll_of_realTime (constructible_systemRealTime_iff.mp hm) d
      have hagree' : Agree (e.out [code]) d' := fun henc => by
        rw [hrs, hpend]; exact hagree henc
      exact ⟨_, [code], d', exec_encRt_of_constructible e hm, rfl, hrun, hmsg,
        masked_of_wellFormed, hagree'⟩
    | systemCommon code data =>
      obtain ⟨d', hrun, hmsg⟩ := feedAll_systemCommon hm d
      refine ⟨_, code :: data.map dataByte, d', exec_encSysCommon_of_constructible e hm, by simp,
        hrun, hmsg, masked_of_wellFormed, agree_of_txrs_none fun henc => ?_⟩
      rw [State.out_cfg, State.setTxrs_cfg] at henc
      rw [State.out_txrs, State.setTxrs_txrs, if_pos henc]
    | _ => exact absurd rfl hv

end Sys2Proof.Machine
end

section
/-! The reset request (spec/70_reset_and_hazards.md R150, R151): the exact next state of each of its
three targets. -/

namespace Sys2Proof.Machine

/-- A reset of the decoder is the decoder's part of the reset (R151). -/
theorem exec_reset_decoder (s : State) : exec (.reset .decoder) s = .next s.clearDecoder := rfl

/-- A reset of the encoder is the encoder's part of the reset (R151). -/
theorem exec_reset_encoder (s : State) : exec (.reset .encoder) s = .next s.clearEncoder := rfl

/-- The encoder's part of a reset as one record update: `TXRS` alone, and only where it is present
(R150). -/
theorem State.clearEncoder_eq (s : State) :
    s.clearEncoder = { s with txrs := if s.cfg.encRunningStatus then none else s.txrs } :=
  State.setTxrs_eq none s

/-- Settles O42, by target: each runs its own part of the reset, and the block's runs the decoder's
and then the encoder's, which reads the parameter and `TXRS` that the decoder's part leaves alone. -/
theorem resetRequest : Obligations.ResetRequest := by
  unfold Obligations.ResetRequest
  intro s
  refine ⟨?decoder, ?encoder, ?block⟩
  case decoder => rw [exec_reset_decoder, State.clearDecoder]
  case encoder => rw [exec_reset_encoder, State.clearEncoder_eq]
  case block =>
    rw [exec_reset_block, State.clearEncoder_eq, State.clearDecoder_cfg, State.clearDecoder_txrs,
      State.clearDecoder]

end Sys2Proof.Machine
end

section
/-! The bytes of an instruction (spec/30_encoding.md R50 to R59): the full wire form of each
well-formed Message, and that `decodeFrame` and `encodeFrame` undo each other on it. -/

namespace Sys2Proof.Machine

/-! Host moves and instructions. -/

/-- The Message of an operation is the one that asked for it (R110). -/
theorem encode_decodeMessage (m : Message) : encode (decodeMessage m) = .txmsg m := by
  cases m <;> rfl

theorem encodeFrame_decodeMessage (m : Message) :
    encodeFrame (decodeMessage m) = ⟨.txmsg, wireForm m⟩ := by
  rw [encodeFrame, encode_decodeMessage, frameOf]

/-- An operation is well-formed when its Message is. -/
theorem wellFormed_decodeMessage (m : Message) : (decodeMessage m).wellFormed = m.wellFormed := by
  cases m <;> rfl

/-- Every byte of `RX` is a well-formed instruction (R63). -/
theorem wellFormed_decodeRx (b : Byte) : (decodeRx b).wellFormed = true := by
  revert b; decide

/-- Settles O3: the instruction's side is `decode_encode`; the move's side goes by the port. -/
theorem movesAndInstructionsAgree : Obligations.MovesAndInstructionsAgree := by
  unfold Obligations.MovesAndInstructionsAgree
  refine ⟨decode_encode, fun move => ?_⟩
  cases move with
  | rx b => exact encode_decodeRx b
  | txmsg m => exact encode_decodeMessage m
  | reset target => rfl

/-- A byte decodes to the instruction whose row it is. -/
theorem decodeRx_of_encode {i : Instr} {b : Byte} (h : encode i = .rx b) : decodeRx b = i := by
  rw [← decode_encode i, h, decode]

/-! A byte put together from a row's fixed bits and its bit field. -/

theorem fixedBits_or_width7 (b : Byte) : (b &&& 0x80#8) ||| (b.setWidth 7).setWidth 8 = b := by
  revert b; decide

theorem fixedBits_or_width4 (b : Byte) : (b &&& 0xF0#8) ||| (b.setWidth 4).setWidth 8 = b := by
  revert b; decide

theorem fixedBits_or_width3 (b : Byte) : (b &&& 0xF8#8) ||| (b.setWidth 3).setWidth 8 = b := by
  revert b; decide

theorem fixedBits_or_width1 (b : Byte) : (b &&& 0xFE#8) ||| (b.setWidth 1).setWidth 8 = b := by
  revert b; decide

/-- A byte of a row with a channel is the row's fixed bits with the byte's channel. -/
theorem decodeRx_of_row {i : BitVec 4 → Instr} {base b : Byte}
    (hi : ∀ n, encode (i n) = .rx (base ||| n.setWidth 8)) (hb : b &&& 0xF0#8 = base) :
    decodeRx b = i (b.setWidth 4) := by
  refine decodeRx_of_encode ((hi _).trans ?_)
  rw [← hb, fixedBits_or_width4]

/-- Settles O4: a byte that matches a row's mask is the row's fixed bits with its own bit field, and
so the byte of the row's instruction. -/
theorem rxRowsDecode : Obligations.RxRowsDecode := by
  unfold Obligations.RxRowsDecode
  intro b
  refine ⟨fun hb => ?data, decodeRx_of_row fun _ => rfl, decodeRx_of_row fun _ => rfl,
    decodeRx_of_row fun _ => rfl, decodeRx_of_row fun _ => rfl, decodeRx_of_row fun _ => rfl,
    decodeRx_of_row fun _ => rfl, decodeRx_of_row fun _ => rfl, fun hb => hb ▸ rfl,
    fun hb => hb ▸ rfl, fun hb => hb ▸ rfl, fun hb => hb ▸ rfl, fun hb => ?undefined,
    fun hb => hb ▸ rfl, fun hb => hb ▸ rfl, fun hb => ?realTime⟩
  case data =>
    have hbyte := fixedBits_or_width7 b
    rw [hb, BitVec.zero_or] at hbyte
    exact decodeRx_of_encode (congrArg Transfer.rx hbyte)
  case undefined =>
    have hbyte := fixedBits_or_width1 b
    rw [hb] at hbyte
    exact decodeRx_of_encode (congrArg Transfer.rx hbyte)
  case realTime =>
    have hbyte := fixedBits_or_width3 b
    rw [hb] at hbyte
    exact decodeRx_of_encode (congrArg Transfer.rx hbyte)

/-- Settles O5: each of the written words is evaluated. -/
theorem writtenOutWordsDecode : Obligations.WrittenOutWordsDecode := by
  unfold Obligations.WrittenOutWordsDecode
  exact ⟨rfl, rfl, rfl, rfl, rfl, rfl, rfl, rfl⟩

/-! The full wire forms (R59). -/

/-- Status byte `st` with data bytes `ds` is the full wire form of the Message `m` (R59): a
channel-voice form, one of the four System Common forms, or a real-time byte. -/
inductive MessageForm : Byte → List Byte → Message → Prop where
  | voice {st : Byte} {ds : List Byte} {m : Message} (h : VoiceForm st ds m) : MessageForm st ds m
  | oneByteCommon {st : Byte} (h : clsByte st = .sc1) (d : Data) :
      MessageForm st [d.setWidth 8] (.systemCommon st [d.toNat])
  | songPosition (p d : Data) :
      MessageForm 0xF2#8 [p.setWidth 8, d.setWidth 8] (.systemCommon 0xF2#8 [p.toNat, d.toNat])
  | tuneRequest : MessageForm 0xF6#8 [] (.systemCommon 0xF6#8 [])
  | realTime {st : Byte} (h : 0xF8#8 ≤ st) : MessageForm st [] (.systemRealTime st)

/-- 0xF1 and 0xF3 are the statuses of class SC1 (R56). -/
theorem eq_F1_or_F3_of_clsByte {r : Byte} (h : clsByte r = .sc1) : r = 0xF1#8 ∨ r = 0xF3#8 := by
  revert r; decide

/-- The byte of a data value has bit 7 clear (R52). -/
theorem setWidth_lt_80 (d : Data) : d.setWidth 8 < 0x80#8 := by
  revert d; decide

/-- The Message of a channel-voice form is well-formed (R102). -/
theorem VoiceForm.wellFormed {st : Byte} {ds : List Byte} {m : Message} (h : VoiceForm st ds m) :
    m.wellFormed = true := by
  cases h with
  | one hm => exact build1_wellFormed hm
  | two hm => exact build2_wellFormed hm

/-- A channel-voice form has data bytes only behind its status byte (R52). -/
theorem VoiceForm.data_lt {st : Byte} {ds : List Byte} {m : Message} (h : VoiceForm st ds m) :
    ∀ d ∈ ds, d < 0x80#8 := by
  cases h <;> simp [setWidth_lt_80]

section
variable {st : Byte} {ds : List Byte} {m : Message}

/-- The Message of a form is well-formed. -/
theorem MessageForm.wellFormed (h : MessageForm st ds m) : m.wellFormed = true := by
  cases h with
  | voice hv => exact hv.wellFormed
  | oneByteCommon hst d =>
    have hd := d.isLt
    obtain rfl | rfl := eq_F1_or_F3_of_clsByte hst <;>
      simp [Message.wellFormed, dataOk] <;> omega
  | songPosition p d =>
    have hp := p.isLt
    have hd := d.isLt
    simp [Message.wellFormed, dataOk]
    omega
  | tuneRequest => rfl
  | realTime hst => simpa [Message.wellFormed] using hst

/-- A form is the one that `wireForm` gives its Message. -/
theorem MessageForm.wireForm_eq (h : MessageForm st ds m) : wireForm m = st :: ds := by
  cases h with
  | voice hv => exact hv.wireForm_eq
  | oneByteCommon _ d => rw [wireForm, List.map_singleton, wireByte_toNat]
  | songPosition p d => simp only [wireForm, List.map_cons, List.map_nil, wireByte_toNat]
  | tuneRequest => rfl
  | realTime _ => rfl

/-- A form begins with a status byte (R36). -/
theorem MessageForm.le_status (h : MessageForm st ds m) : 0x80#8 ≤ st := by
  cases h with
  | voice hv => exact hv.voiceByte_status.1
  | oneByteCommon hst d => obtain rfl | rfl := eq_F1_or_F3_of_clsByte hst <;> decide
  | songPosition p d => decide
  | tuneRequest => decide
  | realTime hst => exact BitVec.le_trans (by decide) hst

/-- A form has data bytes only behind its status byte (R52). -/
theorem MessageForm.data_lt (h : MessageForm st ds m) : ∀ d ∈ ds, d < 0x80#8 := by
  cases h with
  | voice hv => exact hv.data_lt
  | _ => simp [setWidth_lt_80]

end

/-- A well-formed Message is constructible (R120). -/
theorem constructible_of_wellFormed {m : Message} (h : m.wellFormed = true) :
    constructible m = true := by
  cases m with
  | systemRealTime code => exact h
  | systemCommon code data =>
    simp only [Message.wellFormed, Bool.and_eq_true, Bool.or_eq_true, beq_iff_eq] at h
    obtain ⟨(⟨rfl | rfl, hlen⟩ | ⟨rfl, hlen⟩) | ⟨rfl, hlen⟩, -⟩ := h <;>
      simp [constructible, commonCode, hlen] <;> rfl
  | _ => rfl

/-- The masked form of a constructible Message has a wire form (R59, R122). -/
theorem exists_messageForm_masked {m : Message} (h : constructible m = true) :
    ∃ st ds, MessageForm st ds (masked m) := by
  obtain hv | ⟨c, rfl, hc⟩ | ⟨d, rfl⟩ | ⟨p, d, rfl⟩ | ⟨d, rfl⟩ | rfl := constructible_cases h
  · obtain ⟨st, ds, hform, -⟩ := exists_voiceForm hv
    exact ⟨st, ds, .voice hform⟩
  · exact ⟨c, [], .realTime hc⟩
  · exact ⟨_, _, .oneByteCommon rfl (.ofNat 7 d)⟩
  · exact ⟨_, _, .songPosition (.ofNat 7 p) (.ofNat 7 d)⟩
  · exact ⟨_, _, .oneByteCommon rfl (.ofNat 7 d)⟩
  · exact ⟨_, _, .tuneRequest⟩

/-- A well-formed Message has a wire form (R59). -/
theorem exists_messageForm {m : Message} (h : m.wellFormed = true) :
    ∃ st ds, MessageForm st ds m := by
  have hform := exists_messageForm_masked (constructible_of_wellFormed h)
  rwa [masked_of_wellFormed h] at hform

/-! Reading a wire form back. -/

/-- The command nibble is fixed by the bits that the builders match on. -/
theorem command_eq_of_and {s base : Byte} (h : s &&& 0xF0#8 = base) : command s = command base := by
  subst h; revert s; decide

/-- The channel that is read back is the one the builders take. -/
theorem channelBits_toNat (s : Byte) : (channelBits s).toNat = channelOf s := by
  revert s; decide

/-- A status byte is its command with its channel bits beside it. -/
theorem eq_of_command {s base : Byte} (hbase : base &&& 0x0F#8 = 0x00#8)
    (h : command s = command base) : s = base ||| (channelBits s).setWidth 8 := by
  have hsplit : ∀ b : Byte, b = (command b).setWidth 8 <<< 4 ||| (channelBits b).setWidth 8 := by
    decide
  have hcommand : ∀ b : Byte, b &&& 0x0F#8 = 0x00#8 → (command b).setWidth 8 <<< 4 = b := by decide
  rw [← hcommand base hbase, ← h]
  exact hsplit s

/-- The bytes of R98's Message are read back as it. -/
theorem decodeWire_of_build2 {s : Byte} {p d : Data} {m : Message} (h : build2 s p d = some m) :
    decodeWire s [p, d] = .ok (decodeMessage m) := by
  unfold build2 at h
  split at h <;> cases h <;> rename_i hbase <;>
    unfold decodeWire <;> rw [command_eq_of_and hbase, channelBits_toNat] <;> rfl

/-- The bytes of R99's Message are read back as it. -/
theorem decodeWire_of_build1 {s : Byte} {d : Data} {m : Message} (h : build1 s d = some m) :
    decodeWire s [d] = .ok (decodeMessage m) := by
  unfold build1 at h
  split at h <;> cases h <;> rename_i hbase <;>
    unfold decodeWire <;> rw [command_eq_of_and hbase, channelBits_toNat] <;> rfl

/-- The System status bytes are those of the command nibble 0xF (R53). -/
theorem decodeWire_of_command_F {s : Byte} (h : command s = 0xF#4) (vs : List Data) :
    decodeWire s vs = decodeWireSystem s vs := by
  unfold decodeWire
  rw [h]
  rcases vs with _ | ⟨_, _ | ⟨_, _ | _⟩⟩ <;> rfl

/-- Bit 3 selects the real-time bytes among the System status bytes (R54). -/
theorem realTime_iff (s : Byte) : 0xF8#8 ≤ s ↔ command s = 0xF#4 ∧ 0x8#4 ≤ channelBits s := by
  revert s; decide

/-- A real-time byte alone is read back as its Message. -/
theorem decodeWire_of_realTime {s : Byte} (h : 0xF8#8 ≤ s) : decodeWire s [] = .ok (.encRt s) := by
  obtain ⟨hcommand, hchannel⟩ := (realTime_iff s).mp h
  rw [decodeWire_of_command_F hcommand]
  unfold decodeWireSystem
  split
  case h_9 => rfl
  all_goals
    rename_i hcode
    exact absurd (hcode ▸ hchannel) (by decide)

/-- Data values are read back from their bytes (R52). -/
theorem map_dataBits_setWidth (vs : List Data) : (vs.map (·.setWidth 8)).map dataBits = vs := by
  rw [List.map_map]
  exact (List.map_congr_left fun v _ => dataBits_setWidth v).trans (List.map_id vs)

/-- A status byte and the bytes of data values on `TXMSG` are read as a wire form. -/
theorem decodeFrame_txmsg {st : Byte} (hst : isStatus st = true) (vs : List Data) :
    decodeFrame ⟨.txmsg, st :: vs.map (·.setWidth 8)⟩ = decodeWire st vs := by
  have hany : (vs.map (·.setWidth 8)).any isStatus = false := by
    simp [isStatus_eq_false, setWidth_lt_80]
  refine (if_pos hst).trans ((if_neg (Bool.not_eq_true _ ▸ hany)).trans ?_)
  rw [map_dataBits_setWidth]

/-- A wire form is read back as its Message. -/
theorem MessageForm.decodeFrame_eq {st : Byte} {ds : List Byte} {m : Message}
    (h : MessageForm st ds m) : decodeFrame ⟨.txmsg, st :: ds⟩ = .ok (decodeMessage m) := by
  have hstatus : isStatus st = true := (isStatus_iff st).mpr h.le_status
  have hread := decodeFrame_txmsg hstatus
  cases h with
  | voice hv =>
    cases hv with
    | one hm => exact (hread [_]).trans (decodeWire_of_build1 hm)
    | two hm => exact (hread [_, _]).trans (decodeWire_of_build2 hm)
  | oneByteCommon hst d =>
    rw [← List.map_singleton, hread]
    obtain rfl | rfl := eq_F1_or_F3_of_clsByte hst <;> rfl
  | songPosition p d => exact hread [p, d]
  | tuneRequest => rfl
  | realTime hst => exact (hread []).trans (decodeWire_of_realTime hst)

/-- Settles O1, by the port of the instruction's move: a byte decodes to the instruction, and a
well-formed Message has a form, which is read back. -/
theorem frameRoundTrip : Obligations.FrameRoundTrip := by
  unfold Obligations.FrameRoundTrip
  intro i hi
  obtain ⟨move, rfl⟩ : ∃ move, i = decode move := ⟨encode i, (decode_encode i).symm⟩
  cases move with
  | rx b =>
    rw [decode, encodeFrame, encode_decodeRx]
    rfl
  | txmsg m =>
    obtain ⟨st, ds, hform⟩ := exists_messageForm ((wellFormed_decodeMessage m).symm.trans hi)
    rw [decode, encodeFrame_decodeMessage, hform.wireForm_eq, hform.decodeFrame_eq]
  | reset target => rfl

/-- What is read from a System status byte and data values is the Message of a form. -/
theorem messageForm_of_decodeWireSystem {st : Byte} {vs : List Data} {i : Instr}
    (hst : command st = 0xF#4) (h : decodeWireSystem st vs = .ok i) :
    ∃ m, MessageForm st (vs.map (·.setWidth 8)) m ∧ i = decodeMessage m := by
  have hbyte := eq_of_command (base := 0xF0#8) rfl hst
  unfold decodeWireSystem at h
  split at h <;> rename_i hcode
  case h_2 | h_4 =>
    split at h <;> cases h
    rw [hcode] at hbyte
    subst hbyte
    exact ⟨_, .oneByteCommon rfl _, rfl⟩
  case h_3 =>
    split at h <;> cases h
    rw [hcode] at hbyte
    subst hbyte
    exact ⟨_, .songPosition _ _, rfl⟩
  case h_7 =>
    split at h <;> cases h
    rw [hcode] at hbyte
    subst hbyte
    exact ⟨_, .tuneRequest, rfl⟩
  case h_9 =>
    split at h <;> cases h
    have hchannel : 0x8#4 ≤ channelBits st := by
      clear hbyte
      generalize channelBits st = n at *
      revert n; decide
    exact ⟨_, .realTime ((realTime_iff st).mpr ⟨hst, hchannel⟩), rfl⟩
  all_goals cases h

/-- What is read from a status byte and data values is the Message of a form. -/
theorem messageForm_of_decodeWire {st : Byte} {vs : List Data} {i : Instr}
    (h : decodeWire st vs = .ok i) :
    ∃ m, MessageForm st (vs.map (·.setWidth 8)) m ∧ i = decodeMessage m := by
  have hvoice2 : ∀ {base p d m}, build2 (base ||| (channelBits st).setWidth 8) p d = some m →
      base &&& 0x0F#8 = 0x00#8 → command st = command base →
      MessageForm st [p.setWidth 8, d.setWidth 8] m := fun hm hbase hst =>
    .voice (.two (by rwa [← eq_of_command hbase hst] at hm))
  have hvoice1 : ∀ {base d m}, build1 (base ||| (channelBits st).setWidth 8) d = some m →
      base &&& 0x0F#8 = 0x00#8 → command st = command base →
      MessageForm st [d.setWidth 8] m := fun hm hbase hst =>
    .voice (.one (by rwa [← eq_of_command hbase hst] at hm))
  unfold decodeWire at h
  split at h
  case h_8 hst => exact messageForm_of_decodeWireSystem hst h
  all_goals cases h
  case h_1 p d hst => exact ⟨_, hvoice2 (build2_noteOff _ p d) rfl hst, rfl⟩
  case h_2 p d hst => exact ⟨_, hvoice2 (build2_noteOn _ p d) rfl hst, rfl⟩
  case h_3 p d hst => exact ⟨_, hvoice2 (build2_polyAftertouch _ p d) rfl hst, rfl⟩
  case h_4 p d hst => exact ⟨_, hvoice2 (build2_controlChange _ p d) rfl hst, rfl⟩
  case h_5 d hst => exact ⟨_, hvoice1 (build1_programChange _ d) rfl hst, rfl⟩
  case h_6 d hst => exact ⟨_, hvoice1 (build1_channelAftertouch _ d) rfl hst, rfl⟩
  case h_7 p d hst => exact ⟨_, hvoice2 (build2_pitchBend _ p d) rfl hst, rfl⟩

/-- Bytes without bit 7 are the bytes of data values. -/
theorem exists_data_of_any_isStatus {ds : List Byte} (h : ds.any isStatus = false) :
    ∃ vs : List Data, ds = vs.map (·.setWidth 8) := by
  refine ⟨ds.map dataBits, ?_⟩
  have hid : ∀ b ∈ ds, (dataBits b).setWidth 8 = b := fun b hb =>
    setWidth_dataBits ((isStatus_eq_false b).mp (by simpa using List.any_eq_false.mp h b hb))
  rw [List.map_map]
  exact ((List.map_congr_left hid).trans (List.map_id ds)).symm

/-- Bytes on `TXMSG` that decode are the form of the Message they decode to. -/
theorem messageForm_of_decodeFrame {bs : List Byte} {i : Instr}
    (h : decodeFrame ⟨.txmsg, bs⟩ = .ok i) :
    ∃ st ds m, bs = st :: ds ∧ MessageForm st ds m ∧ i = decodeMessage m := by
  cases bs with
  | nil => cases h
  | cons st ds =>
    unfold decodeFrame at h
    dsimp only at h
    split at h
    · split at h
      · cases h
      · rename_i hany
        obtain ⟨vs, rfl⟩ := exists_data_of_any_isStatus (Bool.eq_false_of_not_eq_true hany)
        rw [map_dataBits_setWidth] at h
        obtain ⟨m, hform, hi⟩ := messageForm_of_decodeWire h
        exact ⟨st, _, m, rfl, hform, hi⟩
    · cases h

/-- Settles O2, by port: one byte on `RX`, a form on `TXMSG`, or no byte for a reset. -/
theorem decodedFrameIsTheEncoding : Obligations.DecodedFrameIsTheEncoding := by
  unfold Obligations.DecodedFrameIsTheEncoding
  intro ⟨port, bytes⟩ i h
  cases port with
  | rx =>
    match bytes, h with
    | [b], h =>
      cases h
      exact ⟨wellFormed_decodeRx b, congrArg frameOf (encode_decodeRx b)⟩
  | txmsg =>
    obtain ⟨st, ds, m, rfl, hform, rfl⟩ := messageForm_of_decodeFrame h
    exact ⟨(wellFormed_decodeMessage m).trans hform.wellFormed,
      by rw [encodeFrame_decodeMessage, hform.wireForm_eq]⟩
  | reset target =>
    cases bytes with
    | nil => cases h; exact ⟨rfl, rfl⟩
    | cons b bs => cases h

/-! The full wire form put out (R122). -/

/-- Without running-status compression an encode puts out the wire form of the masked Message and
changes nothing else (R110, R118, R119, R122). -/
theorem exec_decodeMessage_of_not_encRunningStatus {m : Message} {s : State}
    (hm : constructible m = true) (henc : s.cfg.encRunningStatus = false) :
    exec (decodeMessage m) s = .next (s.out (wireForm (masked m))) := by
  by_cases hv : isVoiceMessage m = true
  case pos =>
    obtain ⟨st, ds, hform, hsend⟩ := exists_voiceForm hv
    have hfull : s.statusLeftOut st ≠ true := by simp [State.statusLeftOut, henc]
    have htxrs : s.setTxrs (some st) = s := if_neg (by simp [henc])
    rw [hsend, hform.wireForm_eq, State.sendVoice, if_neg hfull, htxrs]
  case neg =>
    cases m with
    | systemRealTime code => exact exec_encRt_of_constructible s hm
    | systemCommon code data =>
      have htxrs : s.setTxrs none = s := if_neg (by simp [henc])
      have hdata : (data.map (· % 128)).map wireByte = data.map dataByte := by
        rw [List.map_map]
        exact List.map_congr_left fun v _ => (dataByte_eq_mod v).symm
      rw [decodeMessage, exec_encSysCommon_of_constructible s hm, htxrs, masked, wireForm, hdata]
    | _ => exact absurd rfl hv

/-- Settles O48: the bytes put out are the form of the masked Message, and a form has R59's shape
and a well-formed Message. -/
theorem fullWireFormSent : Obligations.FullWireFormSent := by
  unfold Obligations.FullWireFormSent
  intro m s hm henc
  obtain ⟨st, ds, hform⟩ := exists_messageForm_masked hm
  exact ⟨exec_decodeMessage_of_not_encRunningStatus hm henc,
    ⟨st, ds, hform.wireForm_eq, hform.le_status, hform.data_lt⟩, hform.wellFormed,
    masked_of_wellFormed⟩

end Sys2Proof.Machine
end

section
/-! Runs of bytes (spec/20_memory.md R46, spec/40_decoder_status.md R70): what one byte emits, what
a run of bytes leaves, and that both depend on the decoder's registers alone. -/

namespace Sys2Proof.Machine

/-! One byte. -/

/-- What byte `b` emits from `s`, by R70's table. -/
def State.emission (s : State) (b : Byte) : Option Message :=
  Reference.emitted b s.phase s.rs s.pend

/-- A byte adds what it emits to the record of `MSG`. -/
theorem Reference.feed_msgOut (b : Byte) (s : State) :
    (Reference.feed b s).msgOut = s.msgOut ++ (s.emission b).toList.map fun m => (s.rxCount, m) :=
  (FollowsTable.feed b s).2

/-- A byte leaves the encoder's side alone. -/
theorem Reference.feed_encoderUntouched (b : Byte) (s : State) :
    EncoderUntouched s (Reference.feed b s) :=
  encoderUntouched_of_feed (exec_decodeRx_eq_feed b s)

@[simp] theorem Reference.feed_cfg (b : Byte) (s : State) : (Reference.feed b s).cfg = s.cfg := by
  obtain ⟨hcfg, -⟩ := Reference.feed_encoderUntouched b s
  exact hcfg
@[simp] theorem Reference.feed_txrs (b : Byte) (s : State) :
    (Reference.feed b s).txrs = s.txrs := by
  obtain ⟨-, htxrs, -⟩ := Reference.feed_encoderUntouched b s
  exact htxrs
@[simp] theorem Reference.feed_txOut (b : Byte) (s : State) :
    (Reference.feed b s).txOut = s.txOut := by
  obtain ⟨-, -, htx, -⟩ := Reference.feed_encoderUntouched b s
  exact htx
@[simp] theorem Reference.feed_inbox (b : Byte) (s : State) :
    (Reference.feed b s).inbox = s.inbox := by
  obtain ⟨-, -, -, hinbox, -⟩ := Reference.feed_encoderUntouched b s
  exact hinbox
@[simp] theorem Reference.feed_rxCount (b : Byte) (s : State) :
    (Reference.feed b s).rxCount = s.rxCount := by
  obtain ⟨-, -, -, -, hcount⟩ := Reference.feed_encoderUntouched b s
  exact hcount

theorem Reference.feed_of_data_of_none {b : Byte} {s : State} (hb : b < 0x80#8) (hs : s.rs = none) :
    Reference.feed b s = s := by
  rw [Reference.feed_of_data hb, Reference.feedData_of_none hs]

theorem Reference.feed_of_data_of_some {b r : Byte} {s : State} (hb : b < 0x80#8)
    (hs : s.rs = some r) : Reference.feed b s = s.feedDataUnder r (dataBits b) := by
  rw [Reference.feed_of_data hb, Reference.feedData_of_some hs, dataBits_eq_setWidth]

theorem State.emission_of_realTime {b : Byte} (hb : 0xF8#8 ≤ b) (s : State) :
    s.emission b = some (.systemRealTime b) :=
  Reference.emitted_of_realTime hb _ _ _

theorem State.emission_of_legalRs {b : Byte} (hb : legalRs b) (s : State) : s.emission b = none :=
  Reference.emitted_of_legalRs hb _ _ _

/-- What a data byte emits is what its step adds to the record. -/
theorem State.emission_eq_none_of_feed {b : Byte} {s : State}
    (h : (Reference.feed b s).msgOut = s.msgOut) : s.emission b = none := by
  rw [Reference.feed_msgOut, List.append_right_eq_self] at h
  simpa using h

theorem State.emission_eq_some_of_feed {b : Byte} {s : State} {m : Message}
    (h : (Reference.feed b s).msgOut = s.msgOut ++ [(s.rxCount, m)]) : s.emission b = some m := by
  rw [Reference.feed_msgOut, List.append_cancel_left_eq] at h
  cases he : s.emission b <;> simp_all

/-- The Message of a channel-voice form is a channel-voice one. -/
theorem VoiceForm.isVoiceMessage {st : Byte} {ds : List Byte} {m : Message}
    (h : VoiceForm st ds m) : isVoiceMessage m = true := by
  cases h with
  | one hm => unfold build1 at hm; split at hm <;> cases hm <;> rfl
  | two hm => unfold build2 at hm; split at hm <;> cases hm <;> rfl

/-- A channel-voice Message is no real-time one. -/
theorem isRealTimeMessage_of_voice {m : Message} (h : isVoiceMessage m = true) :
    isRealTimeMessage m = false := by
  cases m with
  | systemRealTime code => cases h
  | _ => rfl

/-- What a data byte emits under running status `r` has a wire form, and is no real-time Message. -/
theorem messageForm_of_data {b r : Byte} {s : State} {m : Message} (hb : b < 0x80#8)
    (hs : s.rs = some r) (h : s.emission b = some m) :
    ∃ st ds, MessageForm st ds m ∧ isRealTimeMessage m = false := by
  have hfeed := Reference.feed_of_data_of_some hb hs
  have hsilent : (s.feedDataUnder r (dataBits b)).msgOut ≠ s.msgOut := fun hmsg => by
    cases h.symm.trans (State.emission_eq_none_of_feed (hfeed ▸ hmsg))
  have hemit : ∀ m', (s.feedDataUnder r (dataBits b)).msgOut = s.msgOut ++ [(s.rxCount, m')] →
      m' = m := fun m' hmsg =>
    Option.some.inj ((State.emission_eq_some_of_feed (hfeed ▸ hmsg)).symm.trans h)
  rcases State.feedDataUnder_cases r (dataBits b) s with ⟨-, ht⟩ | ⟨-, m', hm, ht⟩ | ⟨hc, ht⟩ |
    ⟨-, -, ht⟩ | ⟨-, p, m', -, hm, ht⟩ | ⟨hc, p, -, ht⟩ <;> rw [ht] at hsilent hemit
  case inl => exact absurd rfl hsilent
  case inr.inl =>
    obtain rfl := hemit _ rfl
    have hform : VoiceForm r _ m' := .one hm
    exact ⟨_, _, .voice hform, isRealTimeMessage_of_voice hform.isVoiceMessage⟩
  case inr.inr.inl =>
    obtain rfl := hemit _ rfl
    exact ⟨_, _, .oneByteCommon hc _, rfl⟩
  case inr.inr.inr.inl => exact absurd rfl hsilent
  case inr.inr.inr.inr.inl =>
    obtain rfl := hemit _ rfl
    have hform : VoiceForm r _ m' := .two hm
    exact ⟨_, _, .voice hform, isRealTimeMessage_of_voice hform.isVoiceMessage⟩
  case inr.inr.inr.inr.inr =>
    obtain rfl := hemit _ rfl
    obtain rfl := eq_F2_of_clsByte hc
    exact ⟨_, _, .songPosition _ _, rfl⟩

/-- What a byte emits has a wire form, and is a real-time Message exactly when the byte is one. -/
theorem messageForm_of_emission {b : Byte} {s : State} {m : Message} (h : s.emission b = some m) :
    ∃ st ds, MessageForm st ds m ∧ isRealTimeMessage m = isRealTime b := by
  obtain hdata | hlegal | rfl | hrt := byte_cases b
  · have hb : isRealTime b = false := decide_eq_false (not_status_of_data hdata).1
    rw [hb]
    cases hs : s.rs with
    | none =>
      have hfeed := Reference.feed_of_data_of_none hdata hs
      cases h.symm.trans (State.emission_eq_none_of_feed (congrArg State.msgOut hfeed))
    | some r => exact messageForm_of_data hdata hs h
  · cases h.symm.trans (State.emission_of_legalRs hlegal s)
  · cases h
    exact ⟨_, _, .tuneRequest, rfl⟩
  · obtain rfl : _ = m := Option.some.inj ((State.emission_of_realTime hrt s).symm.trans h)
    exact ⟨_, _, .realTime hrt, (decide_eq_true hrt).symm⟩

/-- Every Message a byte emits is well-formed (R102). -/
theorem wellFormed_of_emission {b : Byte} {s : State} {m : Message} (h : s.emission b = some m) :
    m.wellFormed = true := by
  obtain ⟨st, ds, hform, -⟩ := messageForm_of_emission h
  exact hform.wellFormed

/-- A byte emits at most one Message (R32). -/
theorem emission_toList_length (b : Byte) (s : State) : (s.emission b).toList.length ≤ 1 := by
  cases s.emission b <;> simp

/-- Settles O39: the step adds what the byte emits, with the current count of bytes. -/
theorem emittedMessagesWellFormed : Obligations.EmittedMessagesWellFormed := by
  unfold Obligations.EmittedMessagesWellFormed
  intro b s
  refine ⟨_, _, exec_decodeRx_eq_feed b s, Reference.feed_msgOut b s, ?length, ?wellFormed⟩
  case length => simpa only [List.length_map] using emission_toList_length b s
  case wellFormed =>
    simp only [List.mem_map, Option.mem_toList]
    rintro _ ⟨m, hm, rfl⟩
    exact ⟨rfl, wellFormed_of_emission hm⟩

/-- Settles O9: the step is `feed` of the byte from the state in which it is counted. -/
theorem everyByteIsTaken : Obligations.EveryByteIsTaken := by
  unfold Obligations.EveryByteIsTaken
  intro s b rest hs
  let u : State := { s with inbox := rest, rxCount := s.rxCount + 1 }
  refine ⟨Reference.feed b u, (step_of_move hs).trans (exec_decodeRx_eq_feed b u),
    Reference.feed_inbox b u, Reference.feed_rxCount b u, Reference.feed_cfg b u,
    Reference.feed_txrs b u, Reference.feed_txOut b u, ?record⟩
  case record =>
    have hmsg := Reference.feed_msgOut b u
    cases hm : u.emission b with
    | none => exact .inl (by simpa [hm] using hmsg)
    | some m => exact .inr ⟨m, wellFormed_of_emission hm, by simpa [hm] using hmsg⟩

/-! What a byte does depends on the decoder's registers alone. -/

section
variable {s t : State}

theorem phase_of_sameDecoder (h : SameDecoder s t) : s.phase = t.phase := by
  obtain ⟨hrs, hpend, -⟩ := h
  rw [State.phase, State.phase, State.pendV, State.pendV, hrs, hpend]

theorem emission_of_sameDecoder (h : SameDecoder s t) (b : Byte) : s.emission b = t.emission b := by
  rw [State.emission, State.emission, phase_of_sameDecoder h, h.1, h.2.1]

theorem sameDecoder_feedDataUnder (h : SameDecoder s t) (r : Byte) (d : Data) :
    SameDecoder (s.feedDataUnder r d) (t.feedDataUnder r d) := by
  obtain ⟨hrs, hpend, hexp⟩ := h
  unfold State.feedDataUnder
  rw [hpend]
  cases clsByte r
  case cv3 | sc2 => cases t.pend <;> simp [SameDecoder, hrs, hexp]
  all_goals simp [SameDecoder, hrs, hpend, hexp]

/-- Two decoders with the same registers have the same registers after a byte (R22). -/
theorem sameDecoder_feed (h : SameDecoder s t) (b : Byte) :
    SameDecoder (Reference.feed b s) (Reference.feed b t) := by
  obtain hdata | hlegal | rfl | hrt := byte_cases b
  · cases ht : t.rs with
    | none =>
      rw [Reference.feed_of_data_of_none hdata ht,
        Reference.feed_of_data_of_none hdata (h.1.trans ht)]
      exact h
    | some r =>
      rw [Reference.feed_of_data_of_some hdata ht,
        Reference.feed_of_data_of_some hdata (h.1.trans ht)]
      exact sameDecoder_feedDataUnder h r _
  · rw [Reference.feed_of_legalRs hlegal, Reference.feed_of_legalRs hlegal]
    exact ⟨rfl, rfl, rfl⟩
  · exact ⟨rfl, rfl, rfl⟩
  · rw [Reference.feed_of_realTime hrt, Reference.feed_of_realTime hrt]
    exact h

end

/-! A byte does not read the host's moves to come. -/

theorem State.feedDataUnder_load (r : Byte) (d : Data) (ts : List Transfer) (s : State) :
    (s.load ts).feedDataUnder r d = (s.feedDataUnder r d).load ts := by
  have hbuilt : ∀ m, (s.load ts).emitBuilt m = (s.emitBuilt m).load ts := fun m => by
    cases m <;> rfl
  unfold State.feedDataUnder
  rw [State.load_pend]
  cases clsByte r
  case cv2 => exact hbuilt _
  case cv3 =>
    cases s.pend with
    | none => rfl
    | some p => exact congrArg State.release (hbuilt _)
  case sc2 => cases s.pend <;> rfl
  all_goals rfl

theorem Reference.feed_load (b : Byte) (ts : List Transfer) (s : State) :
    Reference.feed b (s.load ts) = (Reference.feed b s).load ts := by
  obtain hdata | hlegal | rfl | hrt := byte_cases b
  · cases hs : s.rs with
    | none =>
      rw [Reference.feed_of_data_of_none hdata hs]
      exact Reference.feed_of_data_of_none hdata hs
    | some r =>
      rw [Reference.feed_of_data_of_some hdata hs, ← State.feedDataUnder_load]
      exact Reference.feed_of_data_of_some hdata hs
  · rw [Reference.feed_of_legalRs hlegal, Reference.feed_of_legalRs hlegal]
    rfl
  · rfl
  · rw [Reference.feed_of_realTime hrt, Reference.feed_of_realTime hrt]
    rfl

/-! A run of bytes as a fold. -/

/-- `s` after byte `b` is taken from `RX`, counted and fed. -/
def State.fedByte (s : State) (b : Byte) : State :=
  Reference.feed b { s with rxCount := s.rxCount + 1 }

/-- `s` after the bytes `bs` are taken one by one, with the host's moves to come as they were. -/
def State.fed (s : State) (bs : List Byte) : State := bs.foldl State.fedByte s

/-- What the bytes `bs` emit from `s`, in order. -/
def State.emissions (s : State) : List Byte → List Message
  | [] => []
  | b :: bs => (s.emission b).toList ++ (s.fedByte b).emissions bs

@[simp] theorem State.fed_nil (s : State) : s.fed [] = s := rfl
@[simp] theorem State.fed_cons (s : State) (b : Byte) (bs : List Byte) :
    s.fed (b :: bs) = (s.fedByte b).fed bs := rfl
@[simp] theorem State.fed_append (s : State) (bs cs : List Byte) :
    s.fed (bs ++ cs) = (s.fed bs).fed cs := List.foldl_append
@[simp] theorem State.emissions_nil (s : State) : s.emissions [] = [] := rfl
@[simp] theorem State.emissions_cons (s : State) (b : Byte) (bs : List Byte) :
    s.emissions (b :: bs) = (s.emission b).toList ++ (s.fedByte b).emissions bs := rfl

theorem State.fed_load (ts : List Transfer) (bs : List Byte) (s : State) :
    (s.load ts).fed bs = (s.fed bs).load ts := by
  induction bs generalizing s with
  | nil => rfl
  | cons b bs ih =>
    have hbyte : (s.load ts).fedByte b = (s.fedByte b).load ts :=
      Reference.feed_load b ts { s with rxCount := s.rxCount + 1 }
    rw [State.fed_cons, hbyte, ih, State.fed_cons]

/-- A run of bytes answers the fold's state, with no move left. -/
theorem feedAll_eq_fed (bs : List Byte) (s : State) :
    feedAll bs s = .next ((s.fed bs).load []) := by
  induction bs generalizing s with
  | nil => rfl
  | cons b bs ih =>
    have hbyte : Reference.feed b { s with inbox := bs.map .rx, rxCount := s.rxCount + 1 } =
        (s.fedByte b).load (bs.map .rx) :=
      Reference.feed_load b _ { s with rxCount := s.rxCount + 1 }
    have hfirst : feedAll (b :: bs) s = feedAll bs ((s.fedByte b).load (bs.map .rx)) := by
      rw [← hbyte]
      exact run_cons_of_next (t := .rx b) (exec_decodeRx_eq_feed b _)
    rw [hfirst, ih, State.fed_load, State.fed_cons]
    rfl

/-- A run of two lists of bytes is a run of the first and then of the second. -/
theorem feedAll_append {bs cs : List Byte} {s u : State} (h : feedAll bs s = .next u) :
    feedAll (bs ++ cs) s = feedAll cs u := by
  obtain rfl := Host.Outcome.next.inj ((feedAll_eq_fed bs s).symm.trans h)
  rw [feedAll_eq_fed, feedAll_eq_fed, State.fed_append, State.fed_load]
  rfl

/-- A run of bytes adds what they emit to the record of `MSG`. -/
theorem State.fed_msgOut (bs : List Byte) (s : State) :
    ∃ es, (s.fed bs).msgOut = s.msgOut ++ es ∧ es.map Prod.snd = s.emissions bs := by
  induction bs generalizing s with
  | nil => exact ⟨[], by simp⟩
  | cons b bs ih =>
    obtain ⟨es, hes, hsnd⟩ := ih (s.fedByte b)
    have hbyte : (s.fedByte b).msgOut =
        s.msgOut ++ (s.emission b).toList.map fun m => (s.rxCount + 1, m) :=
      Reference.feed_msgOut b _
    refine ⟨(s.emission b).toList.map (fun m => (s.rxCount + 1, m)) ++ es, ?_, ?_⟩
    · rw [State.fed_cons, hes, hbyte, List.append_assoc]
    · simp [hsnd, Function.comp_def]

/-- The Messages of a run of bytes are what the bytes emit. -/
theorem newMessages_fed (bs : List Byte) (s : State) :
    newMessages s ((s.fed bs).load []) = s.emissions bs := by
  obtain ⟨es, hes, hsnd⟩ := State.fed_msgOut bs s
  exact (newMessages_of_msgOut hes).trans hsnd

/-- A run of bytes counts them and leaves the encoder's side alone. -/
theorem State.fed_frame (bs : List Byte) (s : State) :
    (s.fed bs).rxCount = s.rxCount + bs.length ∧ (s.fed bs).txOut = s.txOut ∧
      (s.fed bs).txrs = s.txrs := by
  induction bs generalizing s with
  | nil => exact ⟨rfl, rfl, rfl⟩
  | cons b bs ih =>
    obtain ⟨hcount, htx, htxrs⟩ := ih (s.fedByte b)
    refine ⟨hcount.trans ?_, htx.trans (Reference.feed_txOut b _),
      htxrs.trans (Reference.feed_txrs b _)⟩
    rw [State.fedByte, Reference.feed_rxCount, List.length_cons, Nat.add_assoc, Nat.add_comm 1]

/-- A run of bytes emits at most one Message for each byte (R32). -/
theorem State.emissions_length_le (bs : List Byte) (s : State) :
    (s.emissions bs).length ≤ bs.length := by
  induction bs generalizing s with
  | nil => exact le_rfl
  | cons b bs ih =>
    have hbyte := emission_toList_length b s
    have hrest := ih (s.fedByte b)
    rw [State.emissions_cons, List.length_append, List.length_cons]
    omega

/-- Settles O10: the run answers the fold's state, and each fact is one of the fold. -/
theorem byteStreamsRunToTheEnd : Obligations.ByteStreamsRunToTheEnd := by
  unfold Obligations.ByteStreamsRunToTheEnd
  intro bs s
  obtain ⟨es, hes, -⟩ := State.fed_msgOut bs s
  obtain ⟨hcount, htx, htxrs⟩ := State.fed_frame bs s
  exact ⟨_, feedAll_eq_fed bs s, rfl, hcount, ⟨es, hes.symm⟩,
    newMessages_fed bs s ▸ State.emissions_length_le bs s, htx, htxrs⟩

end Sys2Proof.Machine
end

section
/-! Runs of bytes compared (spec/30_encoding.md R58, R60, R61, spec/41_decoder_data.md R103,
spec/60_exceptions.md R130, R131): which differences between two byte streams, or between two
decoders, a run does not show. -/

namespace Sys2Proof.Machine

/-! Two decoders with the same registers. -/

theorem sameDecoder_trans {s t u : State} (h : SameDecoder s t) (h' : SameDecoder t u) :
    SameDecoder s u :=
  ⟨h.1.trans h'.1, h.2.1.trans h'.2.1, h.2.2.trans h'.2.2⟩

theorem sameDecoder_fedByte {s t : State} (h : SameDecoder s t) (b : Byte) :
    SameDecoder (s.fedByte b) (t.fedByte b) :=
  sameDecoder_feed (s := { s with rxCount := s.rxCount + 1 })
    (t := { t with rxCount := t.rxCount + 1 }) h b

theorem sameDecoder_fed {s t : State} (h : SameDecoder s t) (bs : List Byte) :
    SameDecoder (s.fed bs) (t.fed bs) := by
  induction bs generalizing s t with
  | nil => exact h
  | cons b bs ih => exact ih (sameDecoder_fedByte h b)

theorem emissions_of_sameDecoder {s t : State} (h : SameDecoder s t) (bs : List Byte) :
    s.emissions bs = t.emissions bs := by
  induction bs generalizing s t with
  | nil => rfl
  | cons b bs ih =>
    rw [State.emissions_cons, State.emissions_cons, emission_of_sameDecoder h,
      ih (sameDecoder_fedByte h b)]

/-- Settles O57: the registers and what is emitted are the same after each byte. -/
theorem decoderDoesNotSeeEncoder : Obligations.DecoderDoesNotSeeEncoder := by
  unfold Obligations.DecoderDoesNotSeeEncoder
  intro bs s₁ s₂ h
  refine ⟨_, _, feedAll_eq_fed bs s₁, feedAll_eq_fed bs s₂, sameDecoder_fed h bs, ?_⟩
  rw [newMessages_fed, newMessages_fed, emissions_of_sameDecoder h]

/-- A status byte 0x80..0xF7 is one that `RS` can hold, or 0xF6. -/
theorem legalRs_or_tuneReq {b : Byte} (hlo : 0x80#8 ≤ b) (hhi : b ≤ 0xF7#8) :
    legalRs b ∨ b = 0xF6#8 := by
  revert b; decide

/-- After a status byte 0x80..0xF7 the registers, and what it emits, are the same from all states.
-/
theorem fedByte_resynchronises {b : Byte} (hlo : 0x80#8 ≤ b) (hhi : b ≤ 0xF7#8) (s t : State) :
    SameDecoder (s.fedByte b) (t.fedByte b) ∧ s.emission b = t.emission b := by
  obtain hb | rfl := legalRs_or_tuneReq hlo hhi
  · rw [State.fedByte, State.fedByte, Reference.feed_of_legalRs hb, Reference.feed_of_legalRs hb,
      State.emission_of_legalRs hb, State.emission_of_legalRs hb]
    exact ⟨⟨rfl, rfl, rfl⟩, rfl⟩
  · exact ⟨⟨rfl, rfl, rfl⟩, rfl⟩

/-- Settles O33: after the status byte the two decoders hold the same registers. -/
theorem statusByteResynchronises : Obligations.StatusByteResynchronises := by
  unfold Obligations.StatusByteResynchronises
  intro b bs s₁ s₂ hlo hhi
  obtain ⟨hsame, hemit⟩ := fedByte_resynchronises hlo hhi s₁ s₂
  refine ⟨_, _, feedAll_eq_fed _ s₁, feedAll_eq_fed _ s₂, sameDecoder_fed hsame bs, ?_⟩
  rw [newMessages_fed, newMessages_fed, State.emissions_cons, State.emissions_cons, hemit,
    emissions_of_sameDecoder hsame]

/-! Running status. -/

/-- Settles O30: the standing status byte, sent again, sets the registers to what they are and emits
nothing. -/
theorem runningStatusForm : Obligations.RunningStatusForm := by
  unfold Obligations.RunningStatusForm
  intro b bs s hb hinv hrs hpend
  obtain ⟨hexp, -, -⟩ := hinv
  have hlegal := legalRs_of_voiceByte hb
  have hsame : SameDecoder s (s.fedByte b) := by
    rw [State.fedByte, Reference.feed_of_legalRs hlegal]
    exact ⟨hrs, hpend, hrs ▸ hexp⟩
  refine ⟨_, _, feedAll_eq_fed bs s, feedAll_eq_fed (b :: bs) s, sameDecoder_fed hsame bs, ?_⟩
  rw [newMessages_fed, newMessages_fed, State.emissions_cons, State.emission_of_legalRs hlegal,
    emissions_of_sameDecoder hsame]
  rfl

/-- A data byte is taken by FEED_DATA. -/
theorem State.fedByte_data {v : Data} {s u : State}
    (h : exec (.feedData v) { s with rxCount := s.rxCount + 1 } = .next u) :
    s.fedByte (v.setWidth 8) = u := by
  rw [← decodeRx_data, exec_decodeRx_eq_feed] at h
  exact Host.Outcome.next.inj h

/-- What bytes emit is what they add to the record of `MSG`. -/
theorem State.emissions_of_msgOut {bs : List Byte} {s : State} {es : List (Nat × Message)}
    (h : (s.fed bs).msgOut = s.msgOut ++ es) : s.emissions bs = es.map Prod.snd :=
  (newMessages_fed bs s).symm.trans (newMessages_of_msgOut h)

/-- The data bytes of a channel-voice form under its standing status emit its Message and leave the
registers as they were (R93, R95, R96). -/
theorem VoiceForm.fed_of_standing {st : Byte} {ds : List Byte} {m : Message} (h : VoiceForm st ds m)
    {s : State} (hrs : s.rs = some st) (hpend : s.pend = none) :
    SameDecoder (s.fed ds) s ∧ s.emissions ds = [m] := by
  cases h with
  | @one d _ hm =>
    have hfed : s.fed [d.setWidth 8] = State.emit m { s with rxCount := s.rxCount + 1 } :=
      State.fedByte_data (exec_feedData_of_build1 hrs hm)
    exact ⟨by rw [hfed]; exact ⟨rfl, rfl, rfl⟩,
      State.emissions_of_msgOut (es := [(s.rxCount + 1, m)]) (by rw [hfed]; rfl)⟩
  | @two p d _ hm =>
    have hcls := clsByte_of_build2 hm
    have hfirst : s.fedByte (p.setWidth 8) = State.hold p { s with rxCount := s.rxCount + 1 } :=
      State.fedByte_data (exec_feedData_first (s := { s with rxCount := s.rxCount + 1 }) hrs
        (.inl hcls) hpend p)
    have hfed : s.fed [p.setWidth 8, d.setWidth 8] =
        (State.emit m { s with rxCount := s.rxCount + 2, pend := some p }).release := by
      rw [State.fed_cons, hfirst]
      exact State.fedByte_data (exec_feedData_of_build2 hrs rfl hm)
    exact ⟨by rw [hfed]; exact ⟨rfl, hpend.symm, rfl⟩,
      State.emissions_of_msgOut (es := [(s.rxCount + 2, m)]) (by rw [hfed]; rfl)⟩

/-- What two lists of bytes emit, one after the other. -/
theorem State.emissions_append (bs cs : List Byte) (s : State) :
    s.emissions (bs ++ cs) = s.emissions bs ++ (s.fed bs).emissions cs := by
  induction bs generalizing s with
  | nil => rfl
  | cons b bs ih => simp [ih]

/-- Any number of channel-voice forms of one status, without it where it stands, emit their Messages
and leave the registers as they were (R103). -/
theorem fed_forms_of_standing {α : Type} {st : Byte} {form : α → List Byte}
    {message : α → Option Message} (h : ∀ a, ∃ m, message a = some m ∧ VoiceForm st (form a) m)
    (as : List α) {s : State} (hrs : s.rs = some st) (hpend : s.pend = none) :
    SameDecoder (s.fed (as.flatMap form)) s ∧
      (s.emissions (as.flatMap form)).map some = as.map message := by
  induction as generalizing s with
  | nil => exact ⟨⟨rfl, rfl, rfl⟩, rfl⟩
  | cons a as ih =>
    obtain ⟨m, hm, hform⟩ := h a
    obtain ⟨hsame, hemit⟩ := hform.fed_of_standing hrs hpend
    obtain ⟨hsame', hrest⟩ := ih (hsame.1.trans hrs) (hsame.2.1.trans hpend)
    rw [List.flatMap_cons, State.fed_append, State.emissions_append, hemit]
    refine ⟨sameDecoder_trans hsame' hsame, ?_⟩
    rw [List.map_append, hrest, List.map_cons (f := message), hm]
    rfl

/-- Settles O29: a pair of data bytes is the form of a CV3 status, one data byte that of a CV2
status. -/
theorem runningStatusPersists : Obligations.RunningStatusPersists := by
  unfold Obligations.RunningStatusPersists
  intro b s hrs hpend
  refine ⟨fun hcls ps => ?cv3, fun hcls ds => ?cv2⟩
  case cv3 =>
    have hform : ∀ p : Data × Data, ∃ m, build2 b p.1 p.2 = some m ∧
        VoiceForm b [p.1.setWidth 8, p.2.setWidth 8] m := fun p => by
      obtain ⟨m, hm⟩ := Option.isSome_iff_exists.mp
        ((build2_isSome b p.1 p.2).trans (decide_eq_true hcls))
      exact ⟨m, hm, .two hm⟩
    obtain ⟨hsame, hemit⟩ := fed_forms_of_standing hform ps hrs hpend
    exact ⟨_, feedAll_eq_fed _ s, hsame, by rw [newMessages_fed, hemit]⟩
  case cv2 =>
    have hform : ∀ d : Data, ∃ m, build1 b d = some m ∧ VoiceForm b [d.setWidth 8] m := fun d => by
      obtain ⟨m, hm⟩ := Option.isSome_iff_exists.mp
        ((build1_isSome b d).trans (decide_eq_true hcls))
      exact ⟨m, hm, .one hm⟩
    obtain ⟨hsame, hemit⟩ := fed_forms_of_standing hform ds hrs hpend
    rw [List.map_eq_flatMap]
    exact ⟨_, feedAll_eq_fed _ s, hsame, by rw [newMessages_fed, hemit]⟩

/-! Real-time bytes. -/

/-- A real-time byte leaves the decoder's registers as they were (R87). -/
theorem sameDecoder_fedByte_of_realTime {b : Byte} (hb : isRealTime b = true) (s : State) :
    SameDecoder (s.fedByte b) s := by
  rw [State.fedByte, Reference.feed_of_realTime (of_decide_eq_true hb)]
  exact ⟨rfl, rfl, rfl⟩

theorem emission_toList_of_realTime {b : Byte} (hb : isRealTime b = true) (s : State) :
    (s.emission b).toList = [.systemRealTime b] := by
  rw [State.emission_of_realTime (of_decide_eq_true hb)]
  rfl

/-- Only a real-time byte emits a real-time Message (R89). -/
theorem isRealTimeMessage_of_mem_emission {b : Byte} {s : State} {m : Message}
    (hm : m ∈ (s.emission b).toList) : isRealTimeMessage m = isRealTime b := by
  obtain ⟨_, _, -, hrt⟩ := messageForm_of_emission (Option.mem_toList.mp hm)
  exact hrt

/-- Bytes leave the registers as they are without the real-time ones (R61). -/
theorem sameDecoder_fed_filter (bs : List Byte) {s t : State} (h : SameDecoder s t) :
    SameDecoder (s.fed bs) (t.fed (bs.filter fun b => !isRealTime b)) := by
  induction bs generalizing s t with
  | nil => exact h
  | cons b bs ih =>
    cases hb : isRealTime b with
    | false =>
      rw [List.filter_cons_of_pos (by simp [hb])]
      exact ih (sameDecoder_fedByte h b)
    | true =>
      rw [List.filter_cons_of_neg (by simp [hb])]
      exact ih (sameDecoder_trans (sameDecoder_fedByte_of_realTime hb s) h)

/-- Bytes emit, but for real-time Messages, what they emit without the real-time ones (R61). -/
theorem emissions_filter_not_realTime (bs : List Byte) {s t : State} (h : SameDecoder s t) :
    (s.emissions bs).filter (fun m => !isRealTimeMessage m) =
      t.emissions (bs.filter fun b => !isRealTime b) := by
  induction bs generalizing s t with
  | nil => rfl
  | cons b bs ih =>
    rw [State.emissions_cons, List.filter_append]
    cases hb : isRealTime b with
    | false =>
      have hkeep : (s.emission b).toList.filter (fun m => !isRealTimeMessage m) =
          (s.emission b).toList := List.filter_eq_self.mpr fun m hm => by
        rw [isRealTimeMessage_of_mem_emission hm, hb]; rfl
      rw [List.filter_cons_of_pos (by simp [hb]), hkeep, ih (sameDecoder_fedByte h b),
        emission_of_sameDecoder h, State.emissions_cons]
    | true =>
      rw [List.filter_cons_of_neg (by simp [hb]), emission_toList_of_realTime hb,
        ih (sameDecoder_trans (sameDecoder_fedByte_of_realTime hb s) h)]
      rfl

/-- The real-time Messages that bytes emit are their real-time bytes, in order (R61, R87). -/
theorem emissions_filter_realTime (bs : List Byte) (s : State) :
    (s.emissions bs).filter isRealTimeMessage =
      (bs.filter isRealTime).map Message.systemRealTime := by
  induction bs generalizing s with
  | nil => rfl
  | cons b bs ih =>
    rw [State.emissions_cons, List.filter_append, ih]
    cases hb : isRealTime b with
    | false =>
      have hdrop : (s.emission b).toList.filter isRealTimeMessage = [] :=
        List.filter_eq_nil_iff.mpr fun m hm => by
          rw [isRealTimeMessage_of_mem_emission hm, hb]; exact Bool.false_ne_true
      rw [hdrop, List.filter_cons_of_neg (by simp [hb]), List.nil_append]
    | true =>
      rw [emission_toList_of_realTime hb, List.filter_cons_of_pos hb]
      rfl

/-- Settles O31: byte by byte, a real-time byte changes no register and emits its own Message, and
no other byte emits a real-time one. -/
theorem realTimeInterleaving : Obligations.RealTimeInterleaving := by
  unfold Obligations.RealTimeInterleaving
  intro bs s
  have hsame : SameDecoder s s := ⟨rfl, rfl, rfl⟩
  refine ⟨_, _, feedAll_eq_fed bs s, feedAll_eq_fed _ s, sameDecoder_fed_filter bs hsame, ?_⟩
  rw [newMessages_fed, newMessages_fed]
  exact ⟨emissions_filter_not_realTime bs hsame, emissions_filter_realTime bs s⟩

/-! Data bytes without a usable running status. -/

/-- In IDLE and DROP there is no running status, or one of arity 0 (R17). -/
theorem rs_of_dropping {s : State} (h : s.phase = .idle ∨ s.phase = .drop) :
    s.rs = none ∨ ∃ r, s.rs = some r ∧ arity (some r) = 0 := by
  cases hs : s.rs with
  | none => exact .inl rfl
  | some r =>
    refine .inr ⟨r, rfl, ?_⟩
    obtain ha | ha | ha := arity_cases r
    · exact ha
    · simp [State.phase_of_arity_one hs ha] at h
    · cases hp : s.pend with
      | none => simp [State.phase_of_arity_two_of_none hs ha hp] at h
      | some p => simp [State.phase_of_arity_two_of_some hs ha hp] at h

/-- Under a status of arity 0 a data byte is dropped (R92). -/
theorem State.feedDataUnder_of_arity_zero {r : Byte} (hr : arity (some r) = 0) (d : Data)
    (s : State) : s.feedDataUnder r d = s := by
  rcases State.feedDataUnder_cases r d s with ⟨-, h⟩ | ⟨hc, -⟩ | ⟨hc, -⟩ | ⟨ha, -⟩ | ⟨hc, -⟩ |
    ⟨hc, -⟩
  case inl => exact h
  case inr.inr.inr.inl => cases ha.symm.trans hr
  all_goals cases (arity_of_clsByte hc).symm.trans hr

/-- In IDLE and DROP a data byte is dropped (R91, R92). -/
theorem Reference.feed_of_dropping {b : Byte} {s : State} (hb : b < 0x80#8)
    (h : s.phase = .idle ∨ s.phase = .drop) : Reference.feed b s = s := by
  obtain hs | ⟨r, hs, hr⟩ := rs_of_dropping h
  · exact Reference.feed_of_data_of_none hb hs
  · rw [Reference.feed_of_data_of_some hb hs, State.feedDataUnder_of_arity_zero hr]

/-- In IDLE and DROP data and real-time bytes leave the registers as they were, and emit exactly the
real-time bytes. -/
theorem fed_of_dropping {bs : List Byte} (hbs : ∀ b ∈ bs, b < 0x80#8 ∨ 0xF8#8 ≤ b) {s : State}
    (h : s.phase = .idle ∨ s.phase = .drop) :
    SameDecoder (s.fed bs) s ∧
      s.emissions bs = (bs.filter isRealTime).map Message.systemRealTime := by
  induction bs generalizing s with
  | nil => exact ⟨⟨rfl, rfl, rfl⟩, rfl⟩
  | cons b bs ih =>
    have hbyte : SameDecoder (s.fedByte b) s ∧
        (s.emission b).toList = ([b].filter isRealTime).map Message.systemRealTime := by
      obtain hb | hb := hbs b List.mem_cons_self
      · have hfed : s.fedByte b = { s with rxCount := s.rxCount + 1 } :=
          Reference.feed_of_dropping hb h
        have hnone : s.emission b = none :=
          State.emission_eq_none_of_feed (congrArg State.msgOut (Reference.feed_of_dropping hb h))
        have hrt : isRealTime b = false := decide_eq_false (not_status_of_data hb).1
        rw [hfed, hnone, List.filter_cons_of_neg (by simp [hrt])]
        exact ⟨⟨rfl, rfl, rfl⟩, rfl⟩
      · have hrt : isRealTime b = true := decide_eq_true hb
        rw [emission_toList_of_realTime hrt, List.filter_cons_of_pos hrt]
        exact ⟨sameDecoder_fedByte_of_realTime hrt s, rfl⟩
    obtain ⟨hsame, hemit⟩ := hbyte
    obtain ⟨hsame', hrest⟩ := ih (fun x hx => hbs x (List.mem_cons_of_mem b hx))
      ((phase_of_sameDecoder hsame).symm ▸ h)
    refine ⟨sameDecoder_trans hsame' hsame, ?_⟩
    rw [State.emissions_cons, hemit, hrest, ← List.map_append, ← List.filter_append]
    rfl

/-- Settles O32: the phase depends on the registers, so it lasts as they do. -/
theorem dataDroppedUntilStatusByte : Obligations.DataDroppedUntilStatusByte := by
  unfold Obligations.DataDroppedUntilStatusByte
  intro bs s h hbs
  obtain ⟨hsame, hemit⟩ := fed_of_dropping hbs h
  exact ⟨_, feedAll_eq_fed bs s, hsame, (newMessages_fed bs s).trans hemit⟩

end Sys2Proof.Machine
end

section
/-! The step and what every step keeps (spec/20_memory.md R38, spec/10_state.md R14 to R19):
everything a step can do, said once, and each invariant by it. -/

namespace Sys2Proof.Machine

/-! What a step does. -/

/-- Settles O7: the count of bytes goes up for a byte on `RX` only. -/
theorem stepRunsTheNextMove : Obligations.StepRunsTheNextMove := by
  unfold Obligations.StepRunsTheNextMove
  intro s move rest hs
  rw [step_of_move hs]
  cases move <;> rfl

/-- Settles O8, by induction on the number of steps. -/
theorem stateHeldBetweenMoves : Obligations.StateHeldBetweenMoves := by
  unfold Obligations.StateHeldBetweenMoves
  intro s k hs
  induction k with
  | zero => rfl
  | succ k ih => rw [runSteps_succ (step_of_no_move hs), ih]

/-- Only a constructible Message is encoded (R120). -/
theorem constructible_of_exec_next {m : Message} {s t : State}
    (h : exec (decodeMessage m) s = .next t) : constructible m = true := by
  by_contra hm
  cases m with
  | systemRealTime code => cases (exec_encRt_refused s hm).symm.trans h
  | systemCommon code data => cases (exec_encSysCommon_refused s hm).symm.trans h
  | _ => exact hm rfl

/-- Everything a step can do: hold the state, feed a byte, encode a Message, or reset a part. -/
theorem step_cases {s t : State} (h : step s = .next t) :
    t = s ∨
    (∃ b rest, t = Reference.feed b { s with inbox := rest, rxCount := s.rxCount + 1 }) ∨
    (∃ m rest, exec (decodeMessage m) (s.load rest) = .next t) ∨
    (∃ target rest, exec (.reset target) (s.load rest) = .next t) := by
  cases hs : s.inbox with
  | nil => exact .inl (Host.Outcome.next.inj ((step_of_no_move hs).symm.trans h)).symm
  | cons move rest =>
    rw [step_of_move hs] at h
    cases move with
    | rx b =>
      exact .inr (.inl ⟨b, rest, Host.Outcome.next.inj (h.symm.trans (exec_decodeRx_eq_feed b _))⟩)
    | txmsg m => exact .inr (.inr (.inl ⟨m, rest, h⟩))
    | reset target => exact .inr (.inr (.inr ⟨target, rest, h⟩))

/-- Settles O56: with no move the state is held, and no instruction changes the parameters. -/
theorem parametersNeverChange : Obligations.ParametersNeverChange := by
  unfold Obligations.ParametersNeverChange
  intro s t h
  cases hs : s.inbox with
  | nil => rw [Host.Outcome.next.inj ((step_of_no_move hs).symm.trans h)]
  | cons move rest => exact (exec_keeps ((step_of_move hs).symm.trans h)).1

/-! The decoder's invariant (R16). -/

/-- A decoder in its reset state meets its invariant. -/
theorem decoderInv_of_none {s : State} (hrs : s.rs = none) (hpend : s.pend = none)
    (hexp : s.exp = 0#2) : DecoderInv s := by
  refine ⟨?_, ?_, ?_⟩
  · rw [hexp, hrs]; rfl
  · simp [hrs]
  · exact fun h => absurd hpend h

/-- A state whose running status is one it can hold, with `EXP` beside it and nothing pending. -/
theorem decoderInv_setStatus {b : Byte} (hb : legalRs b) (s : State) : DecoderInv (s.setStatus b) :=
  ⟨rfl, by simpa using hb, fun h => absurd rfl h⟩

/-- The invariant reads the decoder's registers alone. -/
theorem decoderInv_of_sameDecoder {s t : State} (h : SameDecoder t s) (hs : DecoderInv s) :
    DecoderInv t := by
  obtain ⟨hrs, hpend, hexp⟩ := h
  rwa [DecoderInv, hrs, hpend, hexp]

/-- A data byte keeps the invariant: a second one is awaited only under a status of arity 2, and
what ends a System Common message leaves no byte pending (R94 to R97). -/
theorem decoderInv_feedDataUnder {r : Byte} {s : State} (h : DecoderInv s) (hs : s.rs = some r)
    (d : Data) : DecoderInv (s.feedDataUnder r d) := by
  have hkeep := h
  obtain ⟨hexp, hlegal, hpend⟩ := h
  rcases State.feedDataUnder_cases r d s with ⟨-, ht⟩ | ⟨-, m, -, ht⟩ | ⟨hc, ht⟩ | ⟨ha, -, ht⟩ |
    ⟨-, p, m, -, -, ht⟩ | ⟨-, p, -, ht⟩ <;> rw [ht]
  case inl => exact hkeep
  case inr.inl => exact hkeep
  case inr.inr.inl =>
    have hnone : s.pend = none := by
      by_contra hne
      have htwo := hpend hne
      rw [hs, arity_of_clsByte hc] at htwo
      cases htwo
    exact decoderInv_of_none rfl hnone rfl
  case inr.inr.inr.inl => exact ⟨hexp, hlegal, fun _ => (congrArg arity hs).trans ha⟩
  case inr.inr.inr.inr.inl => exact ⟨hexp, hlegal, fun hne => absurd rfl hne⟩
  case inr.inr.inr.inr.inr => exact decoderInv_of_none rfl rfl rfl

/-- Every byte keeps the decoder's invariant. -/
theorem decoderInv_feed {s : State} (h : DecoderInv s) (b : Byte) :
    DecoderInv (Reference.feed b s) := by
  obtain hdata | hlegal | rfl | hrt := byte_cases b
  · cases hs : s.rs with
    | none => rwa [Reference.feed_of_data_of_none hdata hs]
    | some r =>
      rw [Reference.feed_of_data_of_some hdata hs]
      exact decoderInv_feedDataUnder h hs _
  · rw [Reference.feed_of_legalRs hlegal]
    exact decoderInv_setStatus hlegal s
  · exact decoderInv_of_none rfl rfl rfl
  · rw [Reference.feed_of_realTime hrt]
    exact h

/-- Settles O36: a byte keeps the invariant, an encode and a reset of the encoder leave the
decoder's registers alone, and any other reset clears them. -/
theorem stepKeepsDecoderInvariant : Obligations.StepKeepsDecoderInvariant := by
  unfold Obligations.StepKeepsDecoderInvariant
  intro s t hs h
  obtain rfl | ⟨b, rest, rfl⟩ | ⟨m, rest, ht⟩ | ⟨target, rest, ht⟩ := step_cases h
  · exact hs
  · exact decoderInv_feed (s := { s with inbox := rest, rxCount := s.rxCount + 1 }) hs b
  · obtain ⟨-, hsame, -⟩ := decoderUntouched_of_encode (constructible_of_exec_next ht) ht
    exact decoderInv_of_sameDecoder hsame hs
  · cases target with
    | decoder => cases ht; exact decoderInv_of_none rfl rfl rfl
    | encoder => cases ht; exact decoderInv_of_sameDecoder (by simp [SameDecoder]) hs
    | block => cases ht; exact decoderInv_of_none (by simp) (by simp) (by simp)

/-! The encoder's invariant (R18, R121). -/

/-- Data and real-time bytes on `TX` leave the standing status. -/
theorem standingStatus_append_of_silent {bs : List Byte} (cs : List Byte)
    (h : ∀ b ∈ bs, b < 0x80#8 ∨ 0xF8#8 ≤ b) : standingStatus (cs ++ bs) = standingStatus cs := by
  have hnone : bs.filter (fun b => decide (0x80#8 ≤ b) && decide (b < 0xF8#8)) = [] := by
    refine List.filter_eq_nil_iff.mpr fun b hb => ?_
    obtain hlt | hle := h b hb
    · simp [BitVec.not_le.mpr hlt]
    · simp [BitVec.not_lt.mpr hle]
  rw [standingStatus, List.filter_append, hnone, List.append_nil, standingStatus]

/-- A status byte that is no real-time byte, with its data bytes, is the standing status (R121). -/
theorem standingStatus_append_status {st : Byte} {ds : List Byte} (cs : List Byte)
    (hlo : 0x80#8 ≤ st) (hhi : st < 0xF8#8) (hds : ∀ d ∈ ds, d < 0x80#8) :
    standingStatus (cs ++ st :: ds) = some st := by
  rw [List.append_cons, standingStatus_append_of_silent _ fun d hd => .inl (hds d hd)]
  simp [standingStatus, hlo, hhi]

/-- An encoder whose `TXRS` holds none meets its invariant. -/
theorem encoderInv_of_none {s : State} (h : s.txrs = none) : EncoderInv s :=
  ⟨fun _ => h, by simp [h]⟩

/-- Data and real-time bytes put out keep the encoder's invariant. -/
theorem encoderInv_out {s : State} (h : EncoderInv s) {bs : List Byte}
    (hbs : ∀ b ∈ bs, b < 0x80#8 ∨ 0xF8#8 ≤ b) : EncoderInv (s.out bs) := by
  obtain ⟨habsent, hstanding⟩ := h
  refine ⟨habsent, fun b hb => ?_⟩
  obtain ⟨hvoice, hlast⟩ := hstanding b hb
  exact ⟨hvoice, (standingStatus_append_of_silent _ hbs).trans hlast⟩

/-- `if ENC_RS: TXRS <- None` leaves none, since an absent `TXRS` is none (R18). -/
theorem setTxrs_none_of_encoderInv {s : State} (h : EncoderInv s) :
    (s.setTxrs none).txrs = none := by
  rw [State.setTxrs_txrs]
  split
  · rfl
  · exact h.1 (Bool.eq_false_of_not_eq_true ‹_›)

/-- A channel-voice operation keeps the encoder's invariant: what it leaves in `TXRS` is the status
that stands on the wire, left out or sent (R110, R121). -/
theorem encoderInv_sendVoice {st : Byte} {ds : List Byte} {m : Message} (hform : VoiceForm st ds m)
    {s : State} (h : EncoderInv s) : EncoderInv (s.sendVoice st ds) := by
  have hds := hform.data_lt
  obtain ⟨-, -, hsend⟩ | ⟨henc, -, hsend⟩ | ⟨henc, hsend⟩ := State.sendVoice_cases st ds s <;>
    rw [hsend]
  · exact encoderInv_out h fun d hd => .inl (hds d hd)
  · obtain ⟨hlo, hhi⟩ := hform.voiceByte_status
    refine ⟨fun hfalse => ?_, fun b hb => ?_⟩
    · cases hfalse.symm.trans henc
    · obtain rfl : st = b := Option.some.inj hb
      exact ⟨⟨hlo, hhi⟩, standingStatus_append_status _ hlo (by bv_omega) hds⟩
  · exact encoderInv_of_none (h.1 henc)

/-- Every encode keeps the encoder's invariant. -/
theorem encoderInv_encode {m : Message} {s t : State} (h : EncoderInv s)
    (ht : exec (decodeMessage m) s = .next t) : EncoderInv t := by
  by_cases hv : isVoiceMessage m = true
  case pos =>
    obtain ⟨st, ds, hform, hsend⟩ := exists_voiceForm hv
    obtain rfl := Host.Outcome.next.inj ((hsend s).symm.trans ht)
    exact encoderInv_sendVoice hform h
  case neg =>
    have hm := constructible_of_exec_next ht
    cases m with
    | systemRealTime code =>
      obtain rfl := Host.Outcome.next.inj ((exec_encRt_of_constructible s hm).symm.trans ht)
      have hcode := constructible_systemRealTime_iff.mp hm
      exact encoderInv_out h (by simpa using Or.inr hcode)
    | systemCommon code data =>
      obtain rfl := Host.Outcome.next.inj ((exec_encSysCommon_of_constructible s hm).symm.trans ht)
      exact encoderInv_of_none (setTxrs_none_of_encoderInv h)
    | _ => exact absurd rfl hv

/-- Settles O37: an encode keeps the invariant, a reset of the encoder leaves `TXRS` none, and a
byte and a reset of the decoder leave the encoder's side alone. -/
theorem stepKeepsEncoderInvariant : Obligations.StepKeepsEncoderInvariant := by
  unfold Obligations.StepKeepsEncoderInvariant
  intro s t hs h
  obtain rfl | ⟨b, rest, rfl⟩ | ⟨m, rest, ht⟩ | ⟨target, rest, ht⟩ := step_cases h
  · exact hs
  · rw [EncoderInv, Reference.feed_cfg, Reference.feed_txrs, Reference.feed_txOut]
    exact hs
  · exact encoderInv_encode (s := s.load rest) hs ht
  · cases target with
    | decoder => cases ht; exact hs
    | encoder =>
      cases ht
      exact encoderInv_of_none (setTxrs_none_of_encoderInv (s := s.load rest) hs)
    | block =>
      cases ht
      exact encoderInv_of_none (setTxrs_none_of_encoderInv (s := (s.load rest).clearDecoder) hs)

/-! The invariant of the run's record (R11, R40). -/

/-- A step that puts nothing on `MSG` and takes no byte keeps the record's invariant. -/
theorem recordInv_of_eq {s t : State} (hs : RecordInv s) (hmsg : t.msgOut = s.msgOut)
    (hcount : t.rxCount = s.rxCount) : RecordInv t := by
  rwa [RecordInv, hmsg, hcount]

/-- A byte keeps the record's invariant: its Message is well-formed (R102), and its index is above
every earlier one. -/
theorem recordInv_feed {s : State} (hs : RecordInv s) (b : Byte) (rest : List Transfer) :
    RecordInv (Reference.feed b { s with inbox := rest, rxCount := s.rxCount + 1 }) := by
  obtain ⟨hrise, hentry⟩ := hs
  rw [RecordInv, Reference.feed_msgOut, Reference.feed_rxCount, List.map_append,
    List.pairwise_append]
  refine ⟨⟨hrise, ?single, ?above⟩, fun e he => ?entry⟩
  case single => cases State.emission _ b <;> simp
  case above =>
    simp only [List.mem_map, Option.mem_toList]
    rintro _ ⟨e, he, rfl⟩ _ ⟨_, ⟨m, -, rfl⟩, rfl⟩
    exact Nat.lt_succ_of_le (hentry e he).2.1
  case entry =>
    obtain hold | hnew := List.mem_append.mp he
    · obtain ⟨hlo, hhi, hwf⟩ := hentry e hold
      exact ⟨hlo, Nat.le_succ_of_le hhi, hwf⟩
    · obtain ⟨m, hm, rfl⟩ := List.mem_map.mp hnew
      exact ⟨Nat.le_add_left 1 _, le_rfl, wellFormed_of_emission (Option.mem_toList.mp hm)⟩

/-- Settles O38: only a byte adds to the record or to the count of bytes. -/
theorem stepKeepsRecordInvariant : Obligations.StepKeepsRecordInvariant := by
  unfold Obligations.StepKeepsRecordInvariant
  intro s t hs h
  obtain rfl | ⟨b, rest, rfl⟩ | ⟨m, rest, ht⟩ | ⟨target, rest, ht⟩ := step_cases h
  · exact hs
  · exact recordInv_feed hs b rest
  · obtain ⟨-, -, hmsg, -, hcount⟩ := decoderUntouched_of_encode (constructible_of_exec_next ht) ht
    exact recordInv_of_eq hs hmsg hcount
  · cases target <;> cases ht <;> exact recordInv_of_eq hs (by simp) (by simp)

/-! The invariants at reset, and what they say of the hardware bits. -/

/-- A created instance meets every invariant (R21). -/
theorem inv_initial (c : Config) : Inv (State.initial c) :=
  ⟨decoderInv_of_none rfl rfl rfl, encoderInv_of_none rfl, List.Pairwise.nil, nofun⟩

/-- Settles O35: the reset state is the instance created with the default parameters. -/
theorem resetMeetsInvariants : Obligations.ResetMeetsInvariants := by
  unfold Obligations.ResetMeetsInvariants
  exact ⟨inv_initial, inv_initial {}⟩

/-- A byte of 0x80 or above has bit 7 set, and so is not the 0x00 of none (R15). -/
theorem msb_of_le {b : Byte} (h : 0x80#8 ≤ b) : b.msb = true ∧ b ≠ 0x00#8 := by
  revert b; decide

/-- The 8 bits of an optional status byte are 0x00 exactly for none (R15, R18). -/
theorem optionBits_eq_zero_iff {r : Option Byte} (h : ∀ b ∈ r, 0x80#8 ≤ b) :
    r = none ↔ optionBits r = 0x00#8 := by
  cases r with
  | none => exact iff_of_true rfl rfl
  | some b => exact iff_of_false nofun (msb_of_le (h b rfl)).2

/-- Settles O40: the invariants say that `RS` and `TXRS` hold bytes of 0x80 and above, and `EXP` an
arity. -/
theorem hardwareBitsTellNone : Obligations.HardwareBitsTellNone := by
  unfold Obligations.HardwareBitsTellNone
  intro s hdec henc
  obtain ⟨hexp, hlegal, -⟩ := hdec
  obtain ⟨-, hstanding⟩ := henc
  refine ⟨optionBits_eq_zero_iff fun b hb => (hlegal b hb).1, ?valid, ?bits, ?pendV, ?exp,
    optionBits_eq_zero_iff fun b hb => (hstanding b hb).1.1⟩
  case valid =>
    rw [State.rsValid, State.rsBits]
    cases hrs : s.rs with
    | none => rfl
    | some b => exact (msb_of_le (hlegal b hrs).1).1
  case bits => intro b hb; rw [State.rsBits, hb, optionBits]
  case pendV => rw [State.pendV, Option.isSome_eq_false_iff, Option.isNone_iff_eq_none]
  case exp => rw [hexp]; exact expOf_ne_three s.rs

end Sys2Proof.Machine
end

section
/-! Runs of Messages and of mixed moves (spec/20_memory.md R32, R45, R46, spec/42_encoder.md R123,
spec/70_reset_and_hazards.md R158, R159). -/

namespace Sys2Proof.Machine

/-! A list of Messages through an encoder and an agreeing decoder. -/

/-- The bytes of a run are those behind its start's record. -/
theorem newBytes_of_txOut {s t : State} {bs : List Byte} (h : t.txOut = s.txOut ++ bs) :
    newBytes s t = bs := by
  rw [newBytes, h, List.drop_left]

/-- The round trip of a list, with what it adds to the records of `TX` and `MSG` written out. -/
theorem encodeAll_feedAll {ms : List Message} (hms : ∀ m ∈ ms, constructible m = true)
    {e d : State} (hagree : Agree e d) :
    ∃ e' bs d' es, encodeAll ms e = .next e' ∧ e'.txOut = e.txOut ++ bs ∧
      feedAll bs d = .next d' ∧ d'.msgOut = d.msgOut ++ es ∧ es.map Prod.snd = ms.map masked ∧
      Agree e' d' := by
  induction ms generalizing e d with
  | nil =>
    exact ⟨_, [], _, [], run_nil e, (List.append_nil _).symm, run_nil d, (List.append_nil _).symm,
      rfl, hagree⟩
  | cons m ms ih =>
    obtain ⟨e₁, bs, d₁, henc, htx, hfeed, hmsg, -, hagree₁⟩ :=
      roundTrip.1 m (e.load (ms.map .txmsg)) d (hms m List.mem_cons_self) hagree
    obtain ⟨e', cs, d', es, hencs, htxs, hfeeds, hmsgs, hsnd, hagree'⟩ :=
      ih (fun x hx => hms x (List.mem_cons_of_mem m hx)) hagree₁
    refine ⟨e', bs ++ cs, d', (d.rxCount + bs.length, masked m) :: es, ?encode, ?bytes, ?feed,
      ?messages, ?values, hagree'⟩
    case encode => exact (run_cons_of_next (t := .txmsg m) henc).trans hencs
    case bytes => rw [htxs, htx, List.append_assoc]; rfl
    case feed => rw [feedAll_append hfeed, hfeeds]
    case messages => rw [hmsgs, hmsg, List.append_assoc]; rfl
    case values => rw [List.map_cons, hsnd, List.map_cons]

/-- Settles O52, by induction on the list: each Message's round trip ends in agreement, from which
the next one begins. -/
theorem messageListRoundTrip : Obligations.MessageListRoundTrip := by
  unfold Obligations.MessageListRoundTrip
  intro ms e d hms hagree
  obtain ⟨e', bs, d', es, henc, htx, hfeed, hmsg, hsnd, hagree'⟩ := encodeAll_feedAll hms hagree
  exact ⟨e', d', henc, by rw [newBytes_of_txOut htx, hfeed],
    (newMessages_of_msgOut hmsg).trans hsnd, hagree'⟩

/-! A Message that reaches a host's handlers. -/

/-- The wire form of a well-formed Message, fed from every state, emits it on its last byte (R59,
R123): it is what an encoder without compression puts out, with which every decoder agrees. -/
theorem feedAll_wireForm {m : Message} (h : m.wellFormed = true) (s : State) :
    ∃ t, feedAll (wireForm m) s = .next t ∧
      t.msgOut = s.msgOut ++ [(s.rxCount + (wireForm m).length, m)] := by
  have hm := constructible_of_wellFormed h
  have hagree : Agree State.reset s := fun henc => nomatch henc
  obtain ⟨e', bs, t, henc, htx, hfeed, hmsg, -, -⟩ := roundTrip.1 m State.reset s hm hagree
  have hsent := exec_decodeMessage_of_not_encRunningStatus (s := State.reset) hm rfl
  obtain rfl := Host.Outcome.next.inj (hsent.symm.trans henc)
  rw [masked_of_wellFormed h] at htx hmsg
  obtain rfl : wireForm m = bs := htx
  exact ⟨t, hfeed, hmsg⟩

/-- Settles O58: what the form emits is filtered by its kind alone; and a Message of each kind with
fields in range. -/
theorem handlersAreIndependent : Obligations.HandlersAreIndependent := by
  unfold Obligations.HandlersAreIndependent
  refine ⟨fun m s hm => ?delivered, fun k => ?kinds⟩
  case delivered =>
    obtain ⟨t, hrun, hmsg⟩ := feedAll_wireForm hm s
    exact ⟨t, hrun, delivered_of_msgOut hmsg⟩
  case kinds =>
    cases k with
    | noteOff => exact ⟨.noteOff 0 60 64, rfl, rfl⟩
    | noteOn => exact ⟨.noteOn 0 60 64, rfl, rfl⟩
    | polyAftertouch => exact ⟨.polyAftertouch 0 60 64, rfl, rfl⟩
    | controlChange => exact ⟨.controlChange 0 7 100, rfl, rfl⟩
    | programChange => exact ⟨.programChange 0 5, rfl, rfl⟩
    | channelAftertouch => exact ⟨.channelAftertouch 0 64, rfl, rfl⟩
    | pitchBend => exact ⟨.pitchBend 0 8192, rfl, rfl⟩
    | systemRealTime => exact ⟨.systemRealTime 0xF8#8, rfl, rfl⟩
    | systemCommon => exact ⟨.systemCommon 0xF6#8 [], rfl, rfl⟩

/-! Mixed moves. -/

/-- A move made under the host's duty completes, and keeps what was put out before (R45, R135). -/
theorem exec_of_dutiful {move : Transfer} (h : dutiful move = true) (s : State) :
    ∃ t, exec (decode move) s = .next t ∧ s.msgOut <+: t.msgOut ∧ s.txOut <+: t.txOut := by
  cases move with
  | rx b =>
    refine ⟨_, exec_decodeRx_eq_feed b s, ?_, ?_⟩
    · rw [Reference.feed_msgOut]; exact List.prefix_append _ _
    · rw [Reference.feed_txOut]
  | txmsg m =>
    obtain ⟨t, bs, ht, htx, -⟩ := outputLengths m s h
    obtain ⟨-, -, hmsg, -⟩ := decoderUntouched_of_encode h ht
    exact ⟨t, ht, by rw [hmsg], ⟨bs, htx.symm⟩⟩
  | reset target => cases target <;> exact ⟨_, rfl, by simp, by simp⟩

/-- Settles O11, by induction on the moves. -/
theorem dutifulMovesRunToTheEnd : Obligations.DutifulMovesRunToTheEnd := by
  unfold Obligations.DutifulMovesRunToTheEnd
  intro moves s hduty
  induction moves generalizing s with
  | nil => exact ⟨_, run_nil s, rfl, rfl, List.prefix_rfl, List.prefix_rfl⟩
  | cons move moves ih =>
    obtain ⟨u, hu, hmsg, htx⟩ := exec_of_dutiful (hduty move List.mem_cons_self)
      { s with inbox := moves, rxCount := s.rxCount + rxBytes move }
    obtain ⟨t, hrun, hinbox, hcfg, hmsg', htx'⟩ :=
      ih u fun x hx => hduty x (List.mem_cons_of_mem move hx)
    exact ⟨t, (run_cons_of_next hu).trans hrun, hinbox, hcfg.trans (exec_keeps hu).1,
      hmsg.trans hmsg', htx.trans htx'⟩

end Sys2Proof.Machine
end

section
/-! The status bytes and the data byte one by one (spec/40_decoder_status.md R72 to R89,
spec/41_decoder_data.md R90, R104). -/

namespace Sys2Proof.Machine

/-! Status instructions. -/

/-- The instruction of a status byte that `RS` can hold, with `EXP` by the byte's class (R57, R71,
R79). -/
theorem exec_of_status {i : Instr} {b : Byte} {c : StatusClass} (hi : encode i = .rx b)
    (hb : legalRs b) (hc : clsByte b = c) (s : State) :
    exec i s = .next { s with rs := some b, pend := none, exp := BitVec.ofNat 2 c.dataBytes } := by
  rw [exec_of_encode_legalRs hi hb, State.setStatus, expOf, arity_of_clsByte hc]

/-- The instruction of a channel-voice status byte (R71). -/
theorem exec_of_voiceStatus {i : Instr} {b : Byte} {c : StatusClass} (hi : encode i = .rx b)
    (hc : clsByte b = c) (hvoice : c = .cv2 ∨ c = .cv3) (s : State) :
    exec i s = .next { s with rs := some b, pend := none, exp := BitVec.ofNat 2 c.dataBytes } :=
  exec_of_status hi (legalRs_of_voiceByte (voiceByte_of_clsByte (hc ▸ hvoice))) hc s

/-- Settles O13: each status byte is of the class whose builder makes its Message. -/
theorem channelVoiceStatusInstructions : Obligations.ChannelVoiceStatusInstructions := by
  unfold Obligations.ChannelVoiceStatusInstructions
  intro n s
  have two : ∀ {i base m}, encode i = .rx (base ||| n.setWidth 8) →
      build2 (base ||| n.setWidth 8) 0#7 0#7 = some m → exec i s = .next
        { s with rs := some (base ||| n.setWidth 8), pend := none, exp := 2#2 } := fun hi hm =>
    exec_of_voiceStatus hi (clsByte_of_build2 hm) (.inr rfl) s
  have one : ∀ {i base m}, encode i = .rx (base ||| n.setWidth 8) →
      build1 (base ||| n.setWidth 8) 0#7 = some m → exec i s = .next
        { s with rs := some (base ||| n.setWidth 8), pend := none, exp := 1#2 } := fun hi hm =>
    exec_of_voiceStatus hi (clsByte_of_build1 hm) (.inl rfl) s
  exact ⟨two rfl (build2_noteOff n _ _), two rfl (build2_noteOn n _ _),
    two rfl (build2_polyAftertouch n _ _), two rfl (build2_controlChange n _ _),
    one rfl (build1_programChange n _), one rfl (build1_channelAftertouch n _),
    two rfl (build2_pitchBend n _ _)⟩

/-- 0xF4 and 0xF5 are unclassified, and `RS` can hold them (R58). -/
theorem legalRs_and_uncl_of_undefined (u : BitVec 1) :
    legalRs (0xF4#8 ||| u.setWidth 8) ∧ clsByte (0xF4#8 ||| u.setWidth 8) = .uncl := by
  revert u; decide

/-- Settles O15: each byte is one that `RS` can hold, with its class by R56. -/
theorem systemStatusInstructions : Obligations.SystemStatusInstructions := by
  unfold Obligations.SystemStatusInstructions
  intro u s
  obtain ⟨hlegal, hcls⟩ := legalRs_and_uncl_of_undefined u
  exact ⟨exec_of_status rfl (by decide) rfl s, exec_of_status rfl (by decide) rfl s,
    exec_of_status rfl (by decide) rfl s, exec_of_status rfl (by decide) rfl s,
    exec_of_status rfl hlegal hcls s, exec_of_status rfl (by decide) rfl s⟩

/-- Settles O18, by the range of the byte. -/
theorem statusBytesThatEmit : Obligations.StatusBytesThatEmit := by
  unfold Obligations.StatusBytesThatEmit
  intro b s hlo
  obtain hdata | hlegal | rfl | hrt := byte_cases b
  · exact absurd hdata (BitVec.not_lt.mpr hlo)
  · exact ⟨_, exec_decodeRx_of_legalRs hlegal s, fun htune => absurd htune hlegal.2.2,
      fun hrt => absurd hrt (not_realTime_of_legalRs hlegal), fun _ _ => rfl⟩
  · exact ⟨_, exec_decodeRx_tuneReq s, fun _ => rfl, fun hrt => absurd hrt (by decide),
      fun hne => absurd rfl hne⟩
  · refine ⟨_, exec_decodeRx_of_realTime hrt s, fun htune => ?_, fun _ => rfl,
      fun _ hlt => absurd hrt (BitVec.not_le.mpr hlt)⟩
    subst htune
    exact absurd hrt (by decide)

/-! The data byte. -/

/-- Settles O20: the byte decodes to its value, and the pseudocode of a byte below 0x80 is that of a
data byte. -/
theorem feedDataFollowsPseudocode : Obligations.FeedDataFollowsPseudocode := by
  unfold Obligations.FeedDataFollowsPseudocode
  intro v s
  refine ⟨decodeRx_data v, ?_⟩
  rw [← decodeRx_data, exec_decodeRx_eq_feed, Reference.feed_of_data (setWidth_lt_80 v)]

/-! What ends a wait (R104). -/

/-- A data byte that changes the phase is the first of two, or completes a Message. -/
theorem feedDataUnder_ends_wait {r : Byte} {d : Data} {s : State} (hs : s.rs = some r)
    (hne : (s.feedDataUnder r d).phase ≠ s.phase) :
    (s.phase = .wait2a ∧ (s.feedDataUnder r d).phase = .wait2b ∧
      (s.feedDataUnder r d).msgOut = s.msgOut) ∨
    ∃ m, (s.phase = .wait1 ∨ s.phase = .wait2b) ∧
      (s.feedDataUnder r d).msgOut = s.msgOut ++ [(s.rxCount, m)] := by
  rcases State.feedDataUnder_cases r d s with ⟨-, ht⟩ | ⟨hc, m, -, ht⟩ | ⟨hc, ht⟩ |
    ⟨ha, hp, ht⟩ | ⟨hc, p, m, hp, -, ht⟩ | ⟨hc, p, hp, ht⟩ <;> rw [ht] at hne ⊢
  case inl => exact absurd rfl hne
  case inr.inl => exact .inr ⟨m, .inl (State.phase_of_arity_one hs (arity_of_clsByte hc)), rfl⟩
  case inr.inr.inl => exact .inr ⟨_, .inl (State.phase_of_arity_one hs (arity_of_clsByte hc)), rfl⟩
  case inr.inr.inr.inl =>
    exact .inl ⟨State.phase_of_arity_two_of_none hs ha hp,
      State.phase_of_arity_two_of_some hs ha rfl, rfl⟩
  case inr.inr.inr.inr.inl =>
    exact .inr ⟨m, .inr (State.phase_of_arity_two_of_some hs (arity_of_clsByte hc) hp), rfl⟩
  case inr.inr.inr.inr.inr =>
    exact .inr ⟨_, .inr (State.phase_of_arity_two_of_some hs (arity_of_clsByte hc) hp), rfl⟩

/-- A byte that changes the phase is a status byte 0x80..0xF7, or a data byte that ends a wait. -/
theorem decodeRx_ends_wait {b : Byte} {s t : State} (ht : exec (decodeRx b) s = .next t)
    (hne : t.phase ≠ s.phase) :
    (0x80#8 ≤ b ∧ b ≤ 0xF7#8) ∨
    (∃ v : Data, decodeRx b = .feedData v ∧ s.phase = .wait2a ∧ t.phase = .wait2b ∧
      t.msgOut = s.msgOut) ∨
    (∃ (v : Data) (m : Message), decodeRx b = .feedData v ∧
      (s.phase = .wait1 ∨ s.phase = .wait2b) ∧ t.msgOut = s.msgOut ++ [(s.rxCount, m)]) := by
  obtain hdata | hlegal | rfl | hrt := byte_cases b
  · cases hs : s.rs with
    | none =>
      obtain rfl := Host.Outcome.next.inj ((exec_decodeRx_of_data_of_none hdata hs).symm.trans ht)
      exact absurd rfl hne
    | some r =>
      obtain rfl := Host.Outcome.next.inj ((exec_decodeRx_of_data_of_some hdata hs).symm.trans ht)
      obtain hfirst | ⟨m, hlast⟩ := feedDataUnder_ends_wait hs hne
      · exact .inr (.inl ⟨_, decodeRx_of_data hdata, hfirst⟩)
      · exact .inr (.inr ⟨_, m, decodeRx_of_data hdata, hlast⟩)
  · exact .inl ⟨hlegal.1, hlegal.2.1⟩
  · exact .inl ⟨by decide, by decide⟩
  · obtain rfl := Host.Outcome.next.inj ((exec_decodeRx_of_realTime hrt s).symm.trans ht)
    exact absurd rfl hne

/-- Settles O34, by the port of the instruction's move: an encode and a reset of the encoder leave
the decoder's registers alone, and so the phase. -/
theorem whatEndsAWait : Obligations.WhatEndsAWait := by
  unfold Obligations.WhatEndsAWait
  intro i s t _ _ _ ht hne
  obtain ⟨move, rfl⟩ : ∃ move, i = decode move := ⟨encode i, (decode_encode i).symm⟩
  cases move with
  | rx b =>
    obtain ⟨hlo, hhi⟩ | hfirst | hlast := decodeRx_ends_wait ht hne
    · exact .inl ⟨b, hlo, hhi, rfl⟩
    · exact .inr (.inr (.inr (.inl hfirst)))
    · exact .inr (.inr (.inr (.inr hlast)))
  | txmsg m =>
    obtain ⟨-, hsame, -⟩ := decoderUntouched_of_encode (constructible_of_exec_next ht) ht
    exact absurd (phase_of_sameDecoder hsame) hne
  | reset target =>
    cases target with
    | decoder => exact .inr (.inl rfl)
    | encoder =>
      cases ht
      exact absurd (phase_of_sameDecoder (s := s.clearEncoder) (t := s) (by simp [SameDecoder])) hne
    | block => exact .inr (.inr (.inl rfl))

end Sys2Proof.Machine
end

section
/-! Instances side by side (spec/10_state.md R20, spec/60_exceptions.md R140,
spec/70_reset_and_hazards.md R152). -/

namespace Sys2Proof.Machine

section
variable {xs : Instances} {k : Nat} {s : State} (hk : xs[k]? = some s)
include hk

/-- A step that answers a next state puts it in the instance's place. -/
theorem Instances.stepAt_of_next {t : State} (h : step s = .next t) :
    Instances.stepAt k xs = .next (xs.set k t) := by
  simp only [Instances.stepAt, hk, h]

/-- A refused step is refused. -/
theorem Instances.stepAt_of_refused {r : Refusal} (h : step s = .refused r) :
    Instances.stepAt k xs = .refused r := by
  simp only [Instances.stepAt, hk, h]

end

/-- Settles O54: the instance's next state is set in its own place, and setting one place of a list
leaves the others. -/
theorem instancesIndependent : Obligations.InstancesIndependent := by
  unfold Obligations.InstancesIndependent
  intro xs k s hk
  refine ⟨fun t ht => ⟨xs.set k t, Instances.stepAt_of_next hk ht, ?_, List.length_set,
    fun j hj => List.getElem?_set_ne hj.symm⟩, fun r hr => Instances.stepAt_of_refused hk hr⟩
  obtain ⟨hlt, -⟩ := List.getElem?_eq_some_iff.mp hk
  exact List.getElem?_set_self hlt

/-- Settles O55: the created instance stands behind the others. -/
theorem createdInstanceIsReset : Obligations.CreatedInstanceIsReset := by
  unfold Obligations.CreatedInstanceIsReset
  intro c xs
  exact ⟨List.getElem?_concat_length, fun k hk => List.getElem?_append_left hk⟩

end Sys2Proof.Machine
end
